-- ==== Sys2Proof/Word.lean ====
section
/-! DEFINITION. The words of HX711PC: command and register words, registers with a width, pin identifiers, causes, samples. -/

namespace Sys2Proof

/-- A command word on `cmd[31:0]` and a host register (30_encoding.md R90, 10_state.md R32). -/
abbrev Word := BitVec 32

/-- A pin identifier in its 8-bit field of the command word and of `CFG` (30_encoding.md R91, 10_state.md R29); a build
with a smaller `PIN_ID_W` uses the low bits (log 2). -/
abbrev PinId := BitVec 8

/-- A failure cause in its 8-bit field of `IOCAUSE` (10_state.md R31); a build with a smaller `CAUSE_W` uses the low bits
(log 2). -/
abbrev Cause := BitVec 8

/-- A raw sample and the accumulator `ACC`, `DATA_BITS` = 24 bits (10_state.md R21). -/
abbrev Sample := BitVec 24

/-- A register as the host reads it, whole, with its width (10_state.md R32): `RESULT` has `RESULT_W` bits, a parameter. -/
structure Reg where
  width : Nat
  bits : BitVec width
deriving DecidableEq, Repr

/-- A 32-bit register. -/
def Reg.word (w : Word) : Reg := ⟨32, w⟩

/-- A register of `n` bits, all 0. -/
def Reg.zero (n : Nat) : Reg := ⟨n, 0⟩

end Sys2Proof
end

