-- ==== Sys2Proof/Config.lean ====
section
/-! DEFINITION. What an implementation fixes (00_scope.md R6), the pin layer's answers, and the free values. -/

namespace Sys2Proof

/-- A logic level (00_scope.md R8). -/
inductive Level where
  | low
  | high
deriving DecidableEq, Repr

/-- The two pin handles (00_scope.md R8). -/
inductive Pin where
  | clock
  | data
deriving DecidableEq, Repr

/-- An answer of the pin layer to one primitive (20_memory.md R65). In `ok v` the bit `v` is the value of a
reading primitive: High for `ReadLevel`, true for `EdgeWasDetected`; the other five primitives carry none. -/
inductive Answer where
  | ok (v : Bool)
  | fail (cause : Cause)
deriving DecidableEq, Repr

/-- The parameters of 00_scope.md R6, but for `PIN_BINDING` (log 1). A time is a number of ticks, `ticksPerMicro` of them
to the microsecond, so that every rational time is one (log 6). -/
structure Params where
  /-- ticks to the microsecond -/
  ticksPerMicro : Nat
  /-- `POLL_ATTEMPTS` -/
  pollAttempts : Nat
  /-- `T_POLL` -/
  tPoll : Nat
  /-- `T_RESET_HOLD` -/
  tResetHold : Nat
  /-- `T_HIGH` -/
  tHigh : Nat
  /-- `T_LOW` -/
  tLow : Nat
  /-- the bound `ε` on the latency of a write and the overshoot of a delay within a pulse's High time
  (70_reset_and_hazards.md R272) -/
  highSlack : Nat
  /-- the bound `t_out` on the chip's clock-to-data delay, which only the sampling margin reads (70_reset_and_hazards.md
  R277, log 29) -/
  tOut : Nat
  /-- `F_CLK` is the rational number `clkCycles / clkMicros` of clock cycles per µs, that is MHz (log 5) -/
  clkCycles : Nat
  /-- see `clkCycles` -/
  clkMicros : Nat
  /-- `RESULT_W` -/
  resultW : Nat
  /-- `PIN_ID_W` (log 2) -/
  pinIdW : Nat
  /-- `CAUSE_W` (log 2) -/
  causeW : Nat
  /-- `PinValid` as a table: bit `i` says whether identifier `i` names a pin (log 5) -/
  pinMask : BitVec 256
  /-- `PIN_PREFIX`, which only the text forms read (30_encoding.md R107, log 27) -/
  pinPrefix : List Char
deriving DecidableEq, Repr

namespace Config

/-- `DATA_BITS` (00_scope.md R6, fixed). -/
abbrev dataBits : Nat := 24

/-- `T_PD` in µs (00_scope.md R6, fixed: a property of the chip). -/
abbrev tPd : Nat := 60

/-- `ENDPULSES_DEFAULT` (00_scope.md R6, fixed). -/
abbrev endPulsesDefault : BitVec 2 := 1

/-- `PinValid`, an OPEN parameter (92_eei_decisions.md D11): a free value, log 5. -/
opaque pinMask : BitVec 256

/-- The OPEN parameter `F_CLK` (92_eei_decisions.md D18), as the two numbers `a`, `b` of `1 + b / (a + 1)` MHz, which is
any rational rate that the default delays allow (70_reset_and_hazards.md R281): free values, log 5. -/
opaque clkFree : Nat × Nat

/-- The bound on a pulse's High time beyond `T_HIGH`, in µs above the 2 that no clock of 1 MHz and more exceeds at the default
`T_HIGH`: a free value within what 70_reset_and_hazards.md R272 allows. Log 23. -/
opaque highSlack : Fin 57

/-- The chip's clock-to-data delay `t_out`, in µs: a datasheet figure that the document does not give
(70_reset_and_hazards.md R277), a free value. Log 29. -/
opaque tOut : Nat

/-- The OPEN parameter `PIN_PREFIX` (92_eei_decisions.md D28): a free value, log 27. -/
opaque pinPrefix : List Char

/-- The abstract pin layer's answers (20_memory.md R65; 93 U12): a free value for each number of a draw.
`none` is "no answer has arrived" (93 U11). Log 4. -/
opaque freeAnswer : Nat → Option Answer

/-- The level of `dout` at a clock edge of the `reference` binding (93 U12): a free value. Log 4. -/
opaque freeDout : Nat → Bool

/-- The synchroniser registers after hardware reset (70_reset_and_hazards.md R261; 93 U13): a free value. Log 16. -/
opaque freeSync : Nat → Bool

end Config

/-- The defaults of 00_scope.md R6, in whole microseconds; the OPEN parameters stay free. -/
def Params.default : Params where
  ticksPerMicro := 1
  pollAttempts := 1500
  tPoll := 250
  tResetHold := 70
  tHigh := 1
  tLow := 1
  highSlack := 2 + Config.highSlack
  tOut := Config.tOut
  clkCycles := Config.clkFree.1 + 1 + Config.clkFree.2
  clkMicros := Config.clkFree.1 + 1
  resultW := 32
  pinIdW := 8
  causeW := 8
  pinMask := Config.pinMask
  pinPrefix := Config.pinPrefix

/-- `T_PD` in ticks. -/
def Params.tPd (p : Params) : Nat := Config.tPd * p.ticksPerMicro

/-- One clock cycle is no longer than the delay `t`, unless `t` is 0 (70_reset_and_hazards.md R281, log 5). -/
def Params.resolves (p : Params) (t : Nat) : Bool :=
  decide (t = 0) || decide (p.clkMicros * p.ticksPerMicro ≤ t * p.clkCycles)

/-- `ceil(t × F_CLK)`, `t` in ticks: the clock cycles of a delay `t` (70_reset_and_hazards.md R281). -/
def Params.cyclesOf (p : Params) (t : Nat) : Nat :=
  (t * p.clkCycles + (p.clkMicros * p.ticksPerMicro - 1)) / (p.clkMicros * p.ticksPerMicro)

/-- The clock cycles a pulse is High: those of its delay, and the one of the write that ends it (R281). -/
def Params.highCycles (p : Params) : Nat := p.cyclesOf p.tHigh + 1

/-- `ε` bounds the latency of a write and the overshoot of a delay (70_reset_and_hazards.md R272), so that a pulse of
`highCycles` clock cycles is High no longer than `T_HIGH + ε`. -/
def Params.slackCoversClock (p : Params) : Bool :=
  decide (p.highCycles * (p.clkMicros * p.ticksPerMicro) ≤ (p.tHigh + p.highSlack) * p.clkCycles)

/-- The sampling margin `T_HIGH + T_LOW ≥ 3 / F_CLK + t_out` (70_reset_and_hazards.md R277), which a build in the
`reference` binding must keep. -/
def Params.samplingMargin (p : Params) : Bool :=
  decide (3 * (p.clkMicros * p.ticksPerMicro) + p.tOut * p.clkCycles ≤ (p.tHigh + p.tLow) * p.clkCycles)

/-- The constraints on the times: those of 00_scope.md R6, with the realised High time of a pulse, which `T_HIGH + ε`
bounds (70_reset_and_hazards.md R272), and the lower limit on `F_CLK` (R281). -/
def Params.timesWf (p : Params) : Bool :=
  decide (1 ≤ p.ticksPerMicro) && decide (0 < p.tPoll) && decide (p.tPd < p.tResetHold)
    && decide (p.tHigh + p.highSlack < p.tPd) && p.slackCoversClock && decide (0 < p.clkCycles) && decide (0 < p.clkMicros)
    && p.resolves p.tPoll && p.resolves p.tResetHold && p.resolves p.tHigh && p.resolves p.tLow

/-- The constraints on the widths: those of 00_scope.md R6, and the room that `CMD32`, `CFG` and `IOCAUSE` leave for an
identifier and for a cause (log 2). -/
def Params.widthsWf (p : Params) : Bool :=
  decide (Config.dataBits ≤ p.resultW) && decide (1 ≤ p.pinIdW) && decide (p.pinIdW ≤ 8)
    && decide (1 ≤ p.causeW) && decide (p.causeW ≤ 8)

/-- The constraints of 00_scope.md R6. -/
def Params.wf (p : Params) : Bool := decide (1 ≤ p.pollAttempts) && p.timesWf && p.widthsWf

end Sys2Proof
end

