-- ==== Sys2Proof/Syntax.lean ====
section
/-! DEFINITION. The five commands, the raw fields of a command word, and the text forms with their pseudo-instructions. -/

namespace Sys2Proof

/-- The commands of 30_encoding.md R93, one constructor per row of opcode_table.json. -/
inductive Instr where
  | init (cpin dpin : PinId)
  | reset
  | shutdown
  | read
  | setgain (n : BitVec 2)
deriving DecidableEq, Repr

/-- The fields of `CMD32`, before any of them is checked (30_encoding.md R91). -/
structure Fields where
  op : BitVec 3
  n : BitVec 2
  z0 : BitVec 3
  cpin : BitVec 8
  dpin : BitVec 8
  z1 : BitVec 8
deriving DecidableEq, Repr

/-- Why a command word is illegal (30_encoding.md R98). -/
inductive Illegal where
  /-- `op` is 0, 6 or 7 -/
  | reservedOp
  /-- `z0` or `z1` is not zero -/
  | nonzeroZ
  /-- `n` is not zero and the operation is not SETGAIN -/
  | nonzeroN
  /-- `cpin` or `dpin` is not zero and the operation is not INIT -/
  | nonzeroPin
deriving DecidableEq, Repr

/-- The fields of a command's word (30_encoding.md R93 to R96): a field the operation does not use is 0. -/
def Instr.fields : Instr → Fields
  | .init c d => ⟨1, 0, 0, c, d, 0⟩
  | .reset => ⟨2, 0, 0, 0, 0, 0⟩
  | .shutdown => ⟨3, 0, 0, 0, 0, 0⟩
  | .read => ⟨4, 0, 0, 0, 0, 0⟩
  | .setgain n => ⟨5, n, 0, 0, 0, 0⟩

/-- The mnemonic of 30_encoding.md R93. -/
def Instr.mnemonic : Instr → String
  | .init _ _ => "INIT"
  | .reset => "RESET"
  | .shutdown => "SHUTDOWN"
  | .read => "READ"
  | .setgain _ => "SETGAIN"

/-- One line of the textual syntax (30_encoding.md R106) or a pseudo-instruction (R108). Operands are the
integers of the text. -/
inductive Asm where
  | init (cpin dpin : Nat)
  | reset
  | shutdown
  | read
  | setgain (n : Nat)
  | selectA128
  | selectB32
  | selectA64
  | recover
  | wake
deriving DecidableEq, Repr

end Sys2Proof
end

