-- ==== Sys2Proof/WellFormed.lean ====
section
/-! DEFINITION. The checks on raw command fields (30_encoding.md R92, R98), on commands and on text lines (R107). -/

namespace Sys2Proof

/-- The checks of 30_encoding.md R98 in its own order; `none` means the fields are those of a command. -/
def Fields.illegal? (f : Fields) : Option Illegal :=
  if f.op = 0 ∨ f.op = 6 ∨ f.op = 7 then some .reservedOp
  else if f.z0 ≠ 0 ∨ f.z1 ≠ 0 then some .nonzeroZ
  else if f.n ≠ 0 ∧ f.op ≠ 5 then some .nonzeroN
  else if (f.cpin ≠ 0 ∨ f.dpin ≠ 0) ∧ f.op ≠ 1 then some .nonzeroPin
  else none

/-- The fields are those of a command. -/
def Fields.wellFormed (f : Fields) : Bool := f.illegal?.isNone

/-- A command is well-formed when its fields are; the operand types carry the operand ranges
(30_encoding.md R94, R95), so every command is. -/
def Instr.wellFormed (i : Instr) : Bool := i.fields.wellFormed

/-- The operands of a text line fit their fields (30_encoding.md R107 and R95). A line that fails cannot be put in a
command word at all. -/
def Asm.wellFormed (p : Params) : Asm → Bool
  | .init c d => decide (c < 2 ^ p.pinIdW) && decide (d < 2 ^ p.pinIdW)
  | .setgain n => decide (n < 4)
  | .reset | .shutdown | .read | .selectA128 | .selectB32 | .selectA64 | .recover | .wake => true

end Sys2Proof
end

