-- ==== Sys2Proof/Decode.lean ====
section
/-! DEFINITION. The decoder, total on 32-bit words and refusing by name, then the encoder and the table of R93. -/

namespace Sys2Proof

/-- `CMD32` taken apart (30_encoding.md R91). -/
def Fields.ofWord (w : Word) : Fields where
  op := w.extractLsb' 0 3
  n := w.extractLsb' 3 2
  z0 := w.extractLsb' 5 3
  cpin := w.extractLsb' 8 8
  dpin := w.extractLsb' 16 8
  z1 := w.extractLsb' 24 8

/-- `CMD32` put together, bit 31 on the left as in the picture of 30_encoding.md R91. -/
def Fields.toWord (f : Fields) : Word :=
  f.z1 ++ f.dpin ++ f.cpin ++ f.z0 ++ f.n ++ f.op

/-- The command of checked fields (30_encoding.md R93); a reserved operation code is refused, not taken for a neighbour. -/
def Fields.instr (f : Fields) : Except Illegal Instr :=
  if f.op = 1 then .ok (.init f.cpin f.dpin)
  else if f.op = 2 then .ok .reset
  else if f.op = 3 then .ok .shutdown
  else if f.op = 4 then .ok .read
  else if f.op = 5 then .ok (.setgain f.n)
  else .error .reservedOp

/-- The decoder (30_encoding.md R93 to R98). It is the same in every state (R100). -/
def decode (w : Word) : Except Illegal Instr :=
  match (Fields.ofWord w).illegal? with
  | some e => .error e
  | none => (Fields.ofWord w).instr

/-- The encoder: the command word of a command (30_encoding.md R93 to R96, R106). -/
def encode (i : Instr) : Word := i.fields.toWord

/-- A row of the table of 30_encoding.md R93. -/
structure Row where
  mnemonic : String
  pattern : Word
  mask : Word
deriving DecidableEq, Repr

/-- The five rows of 30_encoding.md R93, written out from its `match` and `mask` columns. -/
def opcodeRows : List Row :=
  [⟨"INIT", 0x00000001, 0xFF0000FF⟩,
   ⟨"RESET", 0x00000002, 0xFFFFFFFF⟩,
   ⟨"SHUTDOWN", 0x00000003, 0xFFFFFFFF⟩,
   ⟨"READ", 0x00000004, 0xFFFFFFFF⟩,
   ⟨"SETGAIN", 0x00000005, 0xFFFFFFE7⟩]

/-- "A word `w` is the command of a row exactly when `(w & mask) = match`" (30_encoding.md R93). -/
def Row.covers (r : Row) (w : Word) : Bool := decide (w &&& r.mask = r.pattern)

/-- The commands a text line stands for (30_encoding.md R106, R108); none if an operand does not fit. -/
def Asm.expand (p : Params) (a : Asm) : Option (List Instr) :=
  if a.wellFormed p then
    some (match a with
      | .init c d => [.init (BitVec.ofNat 8 c) (BitVec.ofNat 8 d)]
      | .reset => [.reset]
      | .shutdown => [.shutdown]
      | .read => [.read]
      | .setgain n => [.setgain (BitVec.ofNat 2 n)]
      | .selectA128 => [.setgain 1]
      | .selectB32 => [.setgain 2]
      | .selectA64 => [.setgain 3]
      | .recover => [.reset, .read]
      | .wake => [.reset])
  else none

/-- The command words of a text line. -/
def Asm.assemble (p : Params) (a : Asm) : Option (List Word) := (a.expand p).map (·.map encode)

/-- The value of a hexadecimal digit. -/
def hexDigit (c : Char) : Option Nat :=
  if '0' ≤ c ∧ c ≤ '9' then some (c.toNat - '0'.toNat)
  else if 'a' ≤ c ∧ c ≤ 'f' then some (c.toNat - 'a'.toNat + 10)
  else if 'A' ≤ c ∧ c ≤ 'F' then some (c.toNat - 'A'.toNat + 10)
  else none

/-- `acc` followed by the digits `ds` in base `b`. -/
def digits (b : Nat) : List Char → Nat → Option Nat
  | [], acc => some acc
  | c :: cs, acc =>
    match hexDigit c with
    | some v => if v < b then digits b cs (acc * b + v) else none
    | none => none

/-- A decimal or `0x` hexadecimal integer (30_encoding.md R106). -/
def numberText : List Char → Option Nat
  | [] => none
  | ['0', 'x'] => none
  | '0' :: 'x' :: ds => digits 16 ds 0
  | c :: cs => digits 10 (c :: cs) 0

/-- A pin operand in text (30_encoding.md R107): the prefix label, if it is there, is stripped, and a number is left. DESIGN
CHOICE, log 27: R107 has a decimal number there and R106 lets an operand be hexadecimal too; the model takes both, with and
without the label. -/
def pinText (p : Params) (text : List Char) : Option Nat :=
  numberText (if p.pinPrefix.isPrefixOf text then text.drop p.pinPrefix.length else text)

/-- The words of `INIT` with two textual operands. With none there is nothing to put in a command word, and the host itself
reports ConfigError (30_encoding.md R107). -/
def initLine (p : Params) (cpin dpin : List Char) : Option (List Word) :=
  match pinText p cpin, pinText p dpin with
  | some c, some d => (Asm.init c d).assemble p
  | _, _ => none

/-- The command in the low `nbits` bits of `w`, the bits above them zero. A command word is presented whole
(30_encoding.md R90), so it is laid out as one 32-bit word. -/
def decodeTableWord (nbits w : Nat) : Option Instr :=
  match decode (BitVec.ofNat 32 (w % 2 ^ nbits)) with
  | .ok i => some i
  | .error _ => none

end Sys2Proof
end

