-- ==== Sys2Proof/Machine/State.lean ====
section
/-! DEFINITION. The state of HX711PC as plain data, the reasons a step can stop, and the state after hardware reset. -/

namespace Sys2Proof.Machine

/-- The pin primitives (40_primitives.md R120); `WriteLevel` carries its level. The pin is fixed by the primitive
(20_memory.md R61), so `WriteLevel(data, …)` and `ReadLevel(clock)` cannot be written down. -/
inductive Prim where
  | configureInput
  | configureOutput
  | writeLevel (l : Level)
  | readLevel
  | armFallingEdge
  | disarmEdge
  | edgeWasDetected
deriving DecidableEq, Repr

/-- The phases of 10_state.md R23. Phase 7 is never taken and has no constructor (log 21). -/
inductive Phase where
  | idle
  | init
  | reset
  | shutdown
  | wait
  | shift
  | endpulse
deriving DecidableEq, Repr

/-- The sequencer position: the value of `STEP`, `idle` being `-` (10_state.md R23). -/
inductive Pos where
  | idle
  | i0 | i1
  | rs0 | rs1 | rs2 | rs3
  | s0
  | w0 | w1 | w2 | w3 | w4 | w5
  | b0 | b1 | b2 | b3 | b4
  | e0 | e1 | e2 | e3
deriving DecidableEq, Repr

/-- `PEND`: the outcome the wait phase has decided on (10_state.md R27). -/
inductive Pend where
  | none
  | ready
  | timeout
  | ioerr
deriving DecidableEq, Repr

/-- The six outcomes of a command (30_encoding.md R101). Codes 6 and 7 are never produced and have no constructor. -/
inductive Code where
  | ok
  | configError
  | ioError
  | timeoutError
  | illegalCommand
  | notInitialised
deriving DecidableEq, Repr

/-- The kind of primitive recorded in `IOCAUSE.PRIM` (30_encoding.md R102). -/
inductive PrimKind where
  | none
  | configureInput
  | configureOutput
  | writeLevel
  | readLevel
  | armFallingEdge
  | disarmEdge
  | edgeWasDetected
deriving DecidableEq, Repr

/-- The fields of `IOCAUSE` (10_state.md R31). -/
structure IoCause where
  prim : PrimKind
  pin : Pin
  cause : Cause
deriving DecidableEq, Repr

/-- `IOCAUSE` = 0. -/
def IoCause.clear : IoCause := ⟨.none, .clock, 0⟩

/-- `CLKLVL` (10_state.md R40). -/
inductive LineLevel where
  | low
  | high
  | unknown
deriving DecidableEq, Repr

/-- `DIR[clock]` and `DIR[data]` (10_state.md R41); `unknown` after a failed configure (93 U4). -/
inductive Dir where
  | unconfigured
  | input
  | output
  | unknown
deriving DecidableEq, Repr

/-- A flag of the pin layer that may be unknown: `EDGE_ARMED`, `EDGE_LATCH` (10_state.md R42, R43). -/
inductive PinFlag where
  | clear
  | set
  | unknown
deriving DecidableEq, Repr

/-- What is known of the pin layer in the `abstract` binding (20_memory.md R65): `CLKLVL` and `EDGE_ARMED`.
`EDGE_LATCH` is never known there (log 11). -/
structure AbstractPins where
  clkLvl : LineLevel
  edgeArmed : PinFlag
deriving DecidableEq, Repr

/-- The pin layer's registers in the `reference` binding (20_memory.md R66). -/
structure ReferencePins where
  pdSck : Bool
  pdSckOe : Bool
  doutM : Bool
  doutS : Bool
  doutQ : Bool
  edgeArmed : Bool
  edgeLatch : Bool
deriving DecidableEq, Repr

/-- The pin layer; its constructor is the parameter `PIN_BINDING` (00_scope.md R6, log 1). -/
inductive PinLayer where
  | abstr (a : AbstractPins)
  | ref (r : ReferencePins)
deriving DecidableEq, Repr

/-- What the response port carries (20_memory.md R68). -/
structure Response where
  code : Code
  cleanupFail : Bool
  data : Reg
deriving DecidableEq, Repr

/-- An entry of the observation (00_scope.md R10, 92_eei_decisions.md D30, log 14): a primitive with the pin
identifier its handle stood for and its answer, a delay in ticks, a response, or a micro-step spent in hardware reset. -/
inductive Obs where
  | prim (p : Prim) (pin : PinId) (a : Answer)
  | delay (t : Nat)
  | response (r : Response)
  | hardReset
deriving DecidableEq, Repr

/-- Everything the spec gives the machine (10_state.md), with the environment's part of it, and the model's own
fields. INVENTORY.md lists every field with its rule and its reset value. -/
structure State where
  /-- the parameters of 00_scope.md R6; no step writes them (log 1) -/
  params : Params
  /-- the launch premise `PinLayerReady` (70_reset_and_hazards.md R266, log 7) -/
  ready : Bool
  /-- `ACC` (R21) -/
  acc : Sample
  /-- `RESULT`, `RESULT_W` bits (R22) -/
  result : Reg
  /-- `STEP`, which also fixes `PHASE` (R23, log 12) -/
  pos : Pos
  /-- `BITCNT` (R24) -/
  bitcnt : Nat
  /-- `PULSECNT` (R25) -/
  pulsecnt : Nat
  /-- `POLLCNT` (R26) -/
  pollcnt : Nat
  /-- `PEND` (R27) -/
  pend : Pend
  /-- `CFG.ENDPULSES` (R28) -/
  endpulses : BitVec 2
  /-- `CFG.CPIN` (R29) -/
  cpin : PinId
  /-- `CFG.DPIN` (R29) -/
  dpin : PinId
  /-- `STATUS.BUSY` (R30) -/
  busy : Bool
  /-- `STATUS.DONE` (R30) -/
  done : Bool
  /-- `STATUS.CODE` (R30) -/
  code : Code
  /-- `STATUS.RESULT_VALID` (R30) -/
  resultValid : Bool
  /-- `STATUS.INITIALISED` (R30) -/
  initialised : Bool
  /-- `STATUS.CLEANUP_FAIL` (R30) -/
  cleanupFail : Bool
  /-- `IOCAUSE` (R31) -/
  iocause : IoCause
  /-- `rsp_valid` (20_memory.md R68) -/
  rspValid : Bool
  /-- `DIR[clock]` (R41) -/
  dirClock : Dir
  /-- `DIR[data]` (R41) -/
  dirData : Dir
  /-- the pin layer: `CLKLVL`, `EDGE_ARMED`, `EDGE_LATCH` (R40, R42, R43), or the registers behind them -/
  pins : PinLayer
  /-- what the host's command port carries at each coming idle micro-step, `none` being `cmd_valid` = 0 (log 15) -/
  cmds : List (Option Word)
  /-- the level of `rst_n` in each coming micro-step; past the end of the list it is 1 (log 16) -/
  rstn : List Bool
  /-- the coming answers of the abstract pin layer; past the end they are free values (log 4) -/
  replies : List (Option Answer)
  /-- the level of `dout` at each coming clock edge; past the end they are free values (log 4) -/
  dout : List Bool
  /-- the number of the next free value (log 4) -/
  draws : Nat
  /-- the observation so far, newest first (log 14) -/
  log : List Obs
deriving DecidableEq, Repr

/-- The reasons the machine stops with a fault. Every error of the spec is an outcome code reported through `complete`:
"A fault ends the command; it never ends the controller" (00_scope.md section 7 item 5). -/
inductive Fault where
  /-- Raised by step `W5` of READ when `PEND` is NONE, a state for which 42_read.md R187 gives no branch and which
  10_state.md R27 says does not occur; no state that meets the invariant raises it (log 25). Safe. -/
  | noPendingOutcome
deriving DecidableEq, Repr

/-- The reasons a step has no meaning. -/
inductive Refusal where
  /-- Raised by the arm of an instruction that has no meaning yet. Safe: nothing can be proved of what it does. -/
  | notModelled (mnemonic : String)
  /-- Raised at the acceptance of a command that starts a micro-program, and at every micro-step that issues a pin
  primitive, while `PinLayerReady` is false: "a command issued without it has no meaning in this spec (a model
  refuses it)" (70_reset_and_hazards.md R266, log 7). Safe. -/
  | pinLayerNotReady
  /-- Raised at the acceptance of every command on an initialised block both of whose handles name one pin: "every later
  command is outside the spec" (41_lifecycle.md R152(e), 70_reset_and_hazards.md R273, log 8). Safe. -/
  | sharedPins
deriving DecidableEq, Repr

/-- The controller after hardware reset (10_state.md R36), for given parameters and a given pin layer; the model's
own fields are empty (log 3) and the pin layer is set up (log 7). -/
def State.resetWith (p : Params) (pins : PinLayer) : State where
  params := p
  ready := true
  acc := 0
  result := .zero p.resultW
  pos := .idle
  bitcnt := 0
  pulsecnt := 0
  pollcnt := 0
  pend := .none
  endpulses := Config.endPulsesDefault
  cpin := 0
  dpin := 0
  busy := false
  done := false
  code := .ok
  resultValid := false
  initialised := false
  cleanupFail := false
  iocause := .clear
  rspValid := false
  dirClock := .unconfigured
  dirData := .unconfigured
  pins := pins
  cmds := []
  rstn := []
  replies := []
  dout := []
  draws := 0
  log := []

/-- The abstract pin layer of which nothing is known (10_state.md R36, 70_reset_and_hazards.md R261). -/
def AbstractPins.unknown : AbstractPins := ⟨.unknown, .unknown⟩

/-- The machine right after hardware reset: default parameters, `abstract` binding (00_scope.md R6). -/
def State.reset : State := State.resetWith Params.default (.abstr .unknown)

end Sys2Proof.Machine
end

