-- ==== Sys2Proof/Machine/Operands.lean ====
section
/-! DEFINITION. The operands of commands and primitives, and the block's two arithmetic functions. -/

namespace Sys2Proof.Machine

/-- `bit(Low) = 0`, `bit(High) = 1` (00_scope.md R8). -/
def levelBit : Level → BitVec 1
  | .low => 0
  | .high => 1

/-- The level in the answer of `ReadLevel` (40_primitives.md R124). -/
def levelOf (v : Bool) : Level := if v then .high else .low

/-- `shift_in(a, l) = {a[22:0], bit(l)}` (40_primitives.md R130). -/
def shiftIn (a : Sample) (l : Level) : Sample := a.extractLsb' 0 23 ++ levelBit l

/-- `signExtend(v)` at result width `w` (40_primitives.md R131): OR in all bits above bit 23 of a negative sample. -/
def signExtendTo (w : Nat) (v : Sample) : BitVec w :=
  if v.getLsbD 23 then v.setWidth w ||| (BitVec.allOnes w <<< Config.dataBits) else v.setWidth w

/-- `signExtend(v)` at `RESULT_W` (40_primitives.md R131). -/
def signExtend (p : Params) (v : Sample) : Reg := ⟨p.resultW, signExtendTo p.resultW v⟩

/-- `PinValid`, a predicate on `PIN_ID_W`-bit identifiers (00_scope.md R6, 41_lifecycle.md R151); an operand that is none
names no pin (log 2). -/
def pinValid (p : Params) (id : PinId) : Bool := decide (id.toNat < 2 ^ p.pinIdW) && p.pinMask.getLsbD id.toNat

/-- The end-pulse counts a SETGAIN may ask for (30_encoding.md R95, R99): 1, 2, 3. -/
def gainLegal (n : BitVec 2) : Bool := decide (n ≠ 0)

/-- The pin a primitive acts on (20_memory.md R61). -/
def Prim.pin : Prim → Pin
  | .configureOutput | .writeLevel _ => .clock
  | .configureInput | .readLevel | .armFallingEdge | .disarmEdge | .edgeWasDetected => .data

/-- What `IOCAUSE.PRIM` records of a primitive (30_encoding.md R102). -/
def Prim.kind : Prim → PrimKind
  | .configureInput => .configureInput
  | .configureOutput => .configureOutput
  | .writeLevel _ => .writeLevel
  | .readLevel => .readLevel
  | .armFallingEdge => .armFallingEdge
  | .disarmEdge => .disarmEdge
  | .edgeWasDetected => .edgeWasDetected

/-- The identifier a handle stands for (10_state.md R29, 40_primitives.md R134). -/
def State.handle (s : State) : Pin → PinId
  | .clock => s.cpin
  | .data => s.dpin

/-- A cause of `CAUSE_W` bits in its field (00_scope.md R6, log 2). -/
def causeField (ps : Params) (c : Cause) : Cause := (c.setWidth ps.causeW).setWidth 8

/-- An answer as the primitive can give it (20_memory.md R65): only the two reading primitives carry a value, and a cause
has `CAUSE_W` bits. -/
def Prim.settle (ps : Params) (p : Prim) (a : Answer) : Answer :=
  match p, a with
  | .readLevel, .ok v => .ok v
  | .edgeWasDetected, .ok v => .ok v
  | .configureInput, .ok _ | .configureOutput, .ok _ | .writeLevel _, .ok _ => .ok false
  | .armFallingEdge, .ok _ | .disarmEdge, .ok _ => .ok false
  | _, .fail c => .fail (causeField ps c)

end Sys2Proof.Machine
end

