-- ==== Sys2Proof/Machine/Flags.lean ====
section
/-! DEFINITION. The codes and the host-visible words: STATUS, CFG, IOCAUSE, the register port, the handshake. -/

namespace Sys2Proof.Machine

/-- The phase a step label stands in (10_state.md R23). -/
def Pos.phase : Pos → Phase
  | .idle => .idle
  | .i0 | .i1 => .init
  | .rs0 | .rs1 | .rs2 | .rs3 => .reset
  | .s0 => .shutdown
  | .w0 | .w1 | .w2 | .w3 | .w4 | .w5 => .wait
  | .b0 | .b1 | .b2 | .b3 | .b4 => .shift
  | .e0 | .e1 | .e2 | .e3 => .endpulse

/-- The phase codes (10_state.md R23, 30_encoding.md R103). -/
def Phase.bits : Phase → BitVec 3
  | .idle => 0
  | .init => 1
  | .reset => 2
  | .shutdown => 3
  | .wait => 4
  | .shift => 5
  | .endpulse => 6

/-- The outcome codes (30_encoding.md R101). -/
def Code.bits : Code → BitVec 3
  | .ok => 0
  | .configError => 1
  | .ioError => 2
  | .timeoutError => 3
  | .illegalCommand => 4
  | .notInitialised => 5

/-- The primitive codes (30_encoding.md R102). -/
def PrimKind.bits : PrimKind → BitVec 3
  | .none => 0
  | .configureInput => 1
  | .configureOutput => 2
  | .writeLevel => 3
  | .readLevel => 4
  | .armFallingEdge => 5
  | .disarmEdge => 6
  | .edgeWasDetected => 7

/-- `IOCAUSE.PIN`: 0 the clock pin, 1 the data pin (10_state.md R31). -/
def pinBit : Pin → BitVec 1
  | .clock => 0
  | .data => 1

/-- One flag as one bit. -/
def flagBit (b : Bool) : BitVec 1 := BitVec.ofBool b

/-- `PHASE` (10_state.md R23). -/
def State.phase (s : State) : Phase := s.pos.phase

/-- Register 0, `STATUS` (10_state.md R30): bits 31:11 read as zero. -/
def State.statusWord (s : State) : Word :=
  (0 : BitVec 21) ++ s.phase.bits ++ flagBit s.cleanupFail ++ flagBit s.initialised ++ flagBit s.resultValid
    ++ s.code.bits ++ flagBit s.done ++ flagBit s.busy

/-- Register 2, `CFG` (10_state.md R28, R29): bits 31:24 and 7:2 read as zero. -/
def State.cfgWord (s : State) : Word :=
  (0 : BitVec 8) ++ s.dpin ++ s.cpin ++ (0 : BitVec 6) ++ s.endpulses

/-- Register 3, `IOCAUSE` (10_state.md R31): bits 31:16 and 7:4 read as zero. -/
def State.iocauseWord (s : State) : Word :=
  (0 : BitVec 16) ++ s.iocause.cause ++ (0 : BitVec 4) ++ pinBit s.iocause.pin ++ s.iocause.prim.bits

/-- The register read port (10_state.md R32, 20_memory.md R69): whole registers, no side effect, 0 above 3. -/
def State.hostRead (s : State) (n : Nat) : Reg :=
  match n with
  | 0 => .word s.statusWord
  | 1 => s.result
  | 2 => .word s.cfgWord
  | 3 => .word s.iocauseWord
  | _ => .word 0

/-- The width of `reg_rdata` (20_memory.md R69): 32, or `RESULT_W` if larger. A register stands in its low bits; the spec
says nothing of the bits above it, and the model gives them no value. -/
def State.portWidth (s : State) : Nat := max 32 s.params.resultW

/-- `rst_n` is 0 in the coming micro-step (70_reset_and_hazards.md R260, log 16). -/
def State.inReset (s : State) : Bool :=
  match s.rstn with
  | false :: _ => true
  | _ => false

/-- `cmd_ready` (20_memory.md R67): `PHASE = IDLE` and out of reset. -/
def State.cmdReady (s : State) : Bool := decide (s.phase = .idle) && !s.inReset

/-- The response port (20_memory.md R68): the response while `rsp_valid` holds. -/
def State.response? (s : State) : Option Response :=
  if s.rspValid then some ⟨s.code, s.cleanupFail, s.result⟩ else none

/-- A level of a driven line. -/
def driven (b : Bool) : LineLevel := if b then .high else .low

/-- A flag register as a known flag. -/
def knownFlag (b : Bool) : PinFlag := if b then .set else .clear

/-- `CLKLVL` (10_state.md R40); in the `reference` binding `pd_sck` under its output enable (20_memory.md R66). -/
def PinLayer.clkLvl : PinLayer → LineLevel
  | .abstr a => a.clkLvl
  | .ref r => if r.pdSckOe then driven r.pdSck else .unknown

/-- `EDGE_ARMED` (10_state.md R42). -/
def PinLayer.edgeArmed : PinLayer → PinFlag
  | .abstr a => a.edgeArmed
  | .ref r => knownFlag r.edgeArmed

/-- `EDGE_LATCH` (10_state.md R43): never known in the `abstract` binding (log 11). -/
def PinLayer.edgeLatch : PinLayer → PinFlag
  | .abstr _ => .unknown
  | .ref r => knownFlag r.edgeLatch

/-- `CLKLVL`. -/
abbrev State.clkLvl (s : State) : LineLevel := s.pins.clkLvl

/-- `EDGE_ARMED`. -/
abbrev State.edgeArmed (s : State) : PinFlag := s.pins.edgeArmed

/-- `EDGE_LATCH`. -/
abbrev State.edgeLatch (s : State) : PinFlag := s.pins.edgeLatch

end Sys2Proof.Machine
end

