-- ==== Sys2Proof/Machine/Ops.lean ====
section
/-! DEFINITION. The shared operations: the pin layer and its free draws, the micro-step that issues a primitive, delays,
acceptance, `fail_io`, `complete`, hardware reset. -/

namespace Sys2Proof.Machine

/-- The outcome of a micro-step of this machine. -/
abbrev Out := Host.Outcome State Fault Refusal

/-! ### The environment's draws -/

/-- The next answer of the abstract pin layer (20_memory.md R65, log 4). -/
def drawAnswer (s : State) : Option Answer × State :=
  match s.replies with
  | r :: rest => (r, { s with replies := rest })
  | [] => (Config.freeAnswer s.draws, { s with draws := s.draws + 1 })

/-- The level of `dout` at the next clock edge (20_memory.md R66, log 4). -/
def drawDout (s : State) : Bool × State :=
  match s.dout with
  | d :: rest => (d, { s with dout := rest })
  | [] => (Config.freeDout s.draws, { s with draws := s.draws + 1 })

/-! ### The pin layer -/

/-- The abstract pin layer after a primitive and its answer (10_state.md R40, R42; 93 U4: after a failure the flag or
level it would have written is unknown). -/
def AbstractPins.after (a : AbstractPins) (p : Prim) (ans : Answer) : AbstractPins :=
  match p, ans with
  | .writeLevel .low, .ok _ => { a with clkLvl := .low }
  | .writeLevel .high, .ok _ => { a with clkLvl := .high }
  | .writeLevel _, .fail _ => { a with clkLvl := .unknown }
  | .armFallingEdge, .ok _ => { a with edgeArmed := .set }
  | .disarmEdge, .ok _ => { a with edgeArmed := .clear }
  | .armFallingEdge, .fail _ | .disarmEdge, .fail _ => { a with edgeArmed := .unknown }
  | .configureInput, _ | .configureOutput, _ | .readLevel, _ | .edgeWasDetected, _ => a

/-- One rising edge of `clk` in the `reference` binding with `dout` = `d`, independent of any primitive
(20_memory.md R66). -/
def ReferencePins.edge (r : ReferencePins) (d : Bool) : ReferencePins :=
  { r with
    doutM := d
    doutS := r.doutM
    doutQ := r.doutS
    edgeLatch := r.edgeLatch || (r.edgeArmed && r.doutQ && !r.doutS) }

/-- The answer of a primitive in the `reference` binding (20_memory.md R66): never `Fail`. -/
def ReferencePins.answer (r : ReferencePins) : Prim → Answer
  | .readLevel => .ok r.doutS
  | .edgeWasDetected => .ok r.edgeLatch
  | .configureInput | .configureOutput | .writeLevel _ | .armFallingEdge | .disarmEdge => .ok false

/-- The register writes of a primitive in the `reference` binding (20_memory.md R66). -/
def ReferencePins.writes (r : ReferencePins) : Prim → ReferencePins
  | .configureOutput => { r with pdSckOe := true }
  | .writeLevel .low => { r with pdSck := false }
  | .writeLevel .high => { r with pdSck := true }
  | .armFallingEdge => { r with edgeArmed := true, edgeLatch := false }
  | .disarmEdge => { r with edgeArmed := false, edgeLatch := false }
  | .configureInput | .readLevel | .edgeWasDetected => r

/-- The reference pin layer after the cycle of a primitive: the edge, over which the primitive's own writes win. -/
def ReferencePins.after (r : ReferencePins) (p : Prim) (d : Bool) : ReferencePins := (r.edge d).writes p

/-- `DIR[clock]` after a primitive (10_state.md R41, 40_primitives.md R122). -/
def dirClockAfter (old : Dir) (p : Prim) (ans : Answer) : Dir :=
  match p, ans with
  | .configureOutput, .ok _ => .output
  | .configureOutput, .fail _ => .unknown
  | _, _ => old

/-- `DIR[data]` after a primitive (10_state.md R41, 40_primitives.md R121). -/
def dirDataAfter (old : Dir) (p : Prim) (ans : Answer) : Dir :=
  match p, ans with
  | .configureInput, .ok _ => .input
  | .configureInput, .fail _ => .unknown
  | _, _ => old

/-- The state when primitive `p` has been answered by `ans` and the pin layer is `pins` afterwards: the directions
and the trace (00_scope.md R10). -/
def answered (p : Prim) (ans : Answer) (pins : PinLayer) (s : State) : State :=
  { s with
    pins := pins
    dirClock := dirClockAfter s.dirClock p ans
    dirData := dirDataAfter s.dirData p ans
    log := .prim p (s.handle p.pin) ans :: s.log }

/-- One primitive: its answer (`none` while no answer has arrived, 93 U11) and the state after it. -/
def primitive (p : Prim) (s : State) : Option Answer × State :=
  match s.pins with
  | .abstr a =>
    match drawAnswer s with
    | (none, s1) => (none, s1)
    | (some raw, s1) =>
      (some (p.settle s.params raw),
        answered p (p.settle s.params raw) (.abstr (a.after p (p.settle s.params raw))) s1)
  | .ref r => (some (r.answer p), answered p (r.answer p) (.ref (r.after p (drawDout s).1)) (drawDout s).2)

/-- One clock cycle in which no primitive is issued: the `reference` pin layer sees its edge (20_memory.md R66). -/
def cycle (s : State) : State :=
  match s.pins with
  | .abstr _ => s
  | .ref r => { (drawDout s).2 with pins := .ref (r.edge (drawDout s).1) }

/-- `n` clock cycles. -/
def cycles : Nat → State → State
  | 0, s => s
  | n + 1, s => cycles n (cycle s)

/-! ### Micro-steps -/

/-- A micro-step that issues primitive `p` and goes on as `k` says for its answer (20_memory.md R65). While no answer
has arrived the micro-step does not end: the position stays (93 U11). Without `PinLayerReady` there is no meaning
(70_reset_and_hazards.md R266). -/
def issue (p : Prim) (s : State) (k : Answer → State → State) : Out :=
  if s.ready then
    match primitive p s with
    | (none, s1) => .next s1
    | (some a, s1) => .next (k a s1)
  else .refused .pinLayerNotReady

/-- The number of clock cycles of `Delay(t)`: `ceil(t × F_CLK)`, `t` in ticks (70_reset_and_hazards.md R281). -/
def delayCycles (p : Params) (t : Nat) : Nat := p.cyclesOf t

/-- `Delay(t)` (40_primitives.md R128): at least `t` passes, and the trace shows it; `Delay(0)` leaves no event. DESIGN
CHOICE, log 28: every delay ends, in this one micro-step; one that never ends (93 U11) is not in the model. -/
def delay (t : Nat) (s : State) : State :=
  if t = 0 then s
  else { cycles (delayCycles s.params t) s with log := .delay t :: (cycles (delayCycles s.params t) s).log }

/-- `STEP <- p` (with the `PHASE` the label stands in). -/
def goto (p : Pos) (s : State) : State := { s with pos := p }

/-- `fail_io(prim, pin, cause)` (40_primitives.md R133). -/
def failIo (p : Prim) (c : Cause) (s : State) : State :=
  match s.pend with
  | .none | .ready => { s with iocause := ⟨p.kind, p.pin, c⟩ }
  | .timeout | .ioerr => { s with cleanupFail := true }

/-! ### Completion: how every command ends, with success or failure -/

/-- `complete(code)` (60_exceptions.md R230), the block's "trap entry" and its return in one: the outcome is recorded,
the response is raised and control is back in `IDLE`. It is the last write of the micro-step that calls it. -/
def complete (c : Code) (s : State) : State :=
  { s with
    code := c
    done := true
    busy := false
    pos := .idle
    rspValid := true
    log := .response ⟨c, s.cleanupFail, s.result⟩ :: s.log }

/-- A failing primitive that ends the command at once: `fail_io(...)`, then `complete(code)`. -/
def failWith (code : Code) (p : Prim) (c : Cause) (s : State) : State := complete code (failIo p c s)

/-! ### Acceptance -/

/-- The common acceptance actions (41_lifecycle.md R150), in the one clock cycle of an acceptance step (R281). -/
def accepted (s : State) : State :=
  { cycle s with done := false, code := .ok, cleanupFail := false, iocause := .clear }

/-- An accepted word that is no command (30_encoding.md R97, R98; 60_exceptions.md R224). -/
def acceptIllegal (s : State) : State := complete .illegalCommand (accepted s)

/-- An initialised block both of whose handles name one pin: "every later command is outside the spec"
(41_lifecycle.md R152(e), 70_reset_and_hazards.md R273). While the block is uninitialised the handles are meaningless. -/
def State.shared (s : State) : Bool := s.initialised && decide (s.cpin = s.dpin)

/-- The acceptance of a command, refused on shared pins. -/
def unlessShared (s : State) (k : Out) : Out := if s.shared then .refused .sharedPins else k

/-- The acceptance of a command that needs `INITIALISED = 1`: NotInitialised without it (30_encoding.md R97,
60_exceptions.md R225), else the command's own acceptance `k`. -/
def whenInitialised (s : State) (k : State → Out) : Out :=
  unlessShared s (if s.initialised then k (accepted s) else .next (complete .notInitialised (accepted s)))

/-- The acceptance step of a micro-program ends: `BUSY <- 1`, `STEP <- p` (41_lifecycle.md R150). -/
def begin (p : Pos) (s : State) : State := { s with busy := true, pos := p }

/-- `begin` under the premise of every rule about a command that uses the pins: the pin layer is set up
(70_reset_and_hazards.md R266). -/
def launch (p : Pos) (s : State) : Out := if s.ready then .next (begin p s) else .refused .pinLayerNotReady

/-! ### Idle and hardware reset -/

/-- A micro-step has begun: `rsp_valid` lasts one (20_memory.md R68), and this step's level of `rst_n` is past. -/
def tick (s : State) : State := { s with rspValid := false, rstn := s.rstn.tail }

/-- The pin layer after hardware reset (70_reset_and_hazards.md R261): nothing is known of an abstract one (log 9); the
`reference` registers are 0 and its synchroniser holds free values (log 16). -/
def PinLayer.afterReset (pins : PinLayer) (draws : Nat) : PinLayer :=
  match pins with
  | .abstr _ => .abstr .unknown
  | .ref _ => .ref
    { pdSck := false
      pdSckOe := false
      doutM := Config.freeSync draws
      doutS := Config.freeSync (draws + 1)
      doutQ := Config.freeSync (draws + 2)
      edgeArmed := false
      edgeLatch := false }

/-- A micro-step with `rst_n` = 0 (70_reset_and_hazards.md R260 to R262): every register of the controller at its reset
value, no response, no primitive, the command in progress abandoned. What is outside the block stays. -/
def hardReset (s : State) : State :=
  { State.resetWith s.params (s.pins.afterReset s.draws) with
    ready := s.ready
    cmds := s.cmds
    rstn := s.rstn
    replies := s.replies
    dout := s.dout
    draws := s.draws + 3
    log := .hardReset :: s.log }

/-- What the command port carries in this idle micro-step (20_memory.md R67, log 15), and the port afterwards. -/
def offered (s : State) : Option Word × State :=
  match s.cmds with
  | [] => (none, s)
  | w :: rest => (w, { s with cmds := rest })

/-- The command in progress (10_state.md R23): the phase says which, INIT's operands are the latched identifiers. -/
def State.running (s : State) : Option Instr :=
  match s.phase with
  | .idle => none
  | .init => some (.init s.cpin s.dpin)
  | .reset => some .reset
  | .shutdown => some .shutdown
  | .wait | .shift | .endpulse => some .read

end Sys2Proof.Machine
end

