-- ==== Sys2Proof/Machine/Lifecycle.lean ====
section
/-! DEFINITION. The lifecycle commands INIT, RESET, SHUTDOWN, SETGAIN (41_lifecycle.md). A meaning is the next
micro-step of its command: the acceptance step at `IDLE`, else the step at `STEP`. At a position of another command it
leaves the state alone, since a word offered while a command runs waits (20_memory.md R70). -/

namespace Sys2Proof.Machine

/-- A command ends in ConfigError because an identifier does not resolve: `IOCAUSE.PIN` says which (R151, R221(a)). -/
def unresolved (p : Pin) (s : State) : State := complete .configError { s with iocause := ⟨.none, p, 0⟩ }

/-- The acceptance step of INIT (41_lifecycle.md R151). -/
def initAccept (c d : PinId) (s : State) : State :=
  let s1 := { accepted s with initialised := false, resultValid := false }
  if pinValid s.params c then
    if pinValid s.params d then begin .i0 { s1 with cpin := c, dpin := d }
    else unresolved .data s1
  else unresolved .clock s1

/-- INIT issues primitives only when both identifiers resolve; only then does it need the pin layer (R266). -/
def initNeedsPins (c d : PinId) (s : State) : Bool := pinValid s.params c && pinValid s.params d

/-- Step `I0` of INIT (R151). -/
def initI0 (s : State) : Out :=
  issue .configureInput s fun a s =>
    match a with
    | .ok _ => goto .i1 s
    | .fail c => failWith .configError .configureInput c s

/-- Step `I1` of INIT (R151). -/
def initI1 (s : State) : Out :=
  issue .configureOutput s fun a s =>
    match a with
    | .ok _ => complete .ok { s with endpulses := Config.endPulsesDefault, initialised := true }
    | .fail c => failWith .configError .configureOutput c s

/-- `INIT cpin, dpin` (41_lifecycle.md R151, R152). -/
def execInit (c d : PinId) (s : State) : Out :=
  match s.pos with
  | .idle =>
    unlessShared s
      (if s.ready || !initNeedsPins c d s then .next (initAccept c d s) else .refused .pinLayerNotReady)
  | .i0 => initI0 s
  | .i1 => initI1 s
  | _ => .next s

/-- A step that writes the clock line, goes on as `k` says when that succeeded, and ends in IoError otherwise
(41_lifecycle.md R153, R155; 42_read.md R188, R191). -/
def writeClock (l : Level) (k : State → State) (s : State) : Out :=
  issue (.writeLevel l) s fun a s =>
    match a with
    | .ok _ => k s
    | .fail c => failWith .ioError (.writeLevel l) c s

/-- `RESET` (41_lifecycle.md R153, R154). -/
def execReset (s : State) : Out :=
  match s.pos with
  | .idle => whenInitialised s (launch .rs0)
  | .rs0 => writeClock .low (goto .rs1) s
  | .rs1 => writeClock .high (goto .rs2) s
  | .rs2 => .next (goto .rs3 (delay s.params.tResetHold s))
  | .rs3 => writeClock .low (complete .ok) s
  | _ => .next s

/-- `SHUTDOWN` (41_lifecycle.md R155). -/
def execShutdown (s : State) : Out :=
  match s.pos with
  | .idle => whenInitialised s (launch .s0)
  | .s0 => writeClock .high (complete .ok) s
  | _ => .next s

/-- The acceptance step of SETGAIN, which is all of it (41_lifecycle.md R156). -/
def setgainAccept (n : BitVec 2) (s : State) : State :=
  if gainLegal n then complete .ok { s with endpulses := n } else complete .configError s

/-- `SETGAIN n` (41_lifecycle.md R156). -/
def execSetgain (n : BitVec 2) (s : State) : Out :=
  match s.pos with
  | .idle => whenInitialised s fun s => .next (setgainAccept n s)
  | _ => .next s

end Sys2Proof.Machine
end

