-- ==== Sys2Proof/Machine/Read.lean ====
section
/-! DEFINITION. The sampling command READ (42_read.md), one definition per micro-step. -/

namespace Sys2Proof.Machine

/-- READ's own acceptance actions (42_read.md R181), over the common ones. -/
def readClear (s : State) : State :=
  { s with resultValid := false, acc := 0, bitcnt := 0, pulsecnt := 0, pollcnt := 0, pend := .none }

/-- The acceptance step of READ (42_read.md R181). -/
def readAccept (s : State) : Out := whenInitialised s fun s => launch .w0 (readClear s)

/-- The wait phase has decided on `p` and goes to the disarm step (42_read.md R182 to R185). -/
def leaveWait (p : Pend) (s : State) : State := { s with pend := p, pos := .w5 }

/-- A primitive of the wait phase failed after the arming: the disarm is still owed (42_read.md R182 to R184). -/
def waitFailed (p : Prim) (c : Cause) (s : State) : State := leaveWait .ioerr (failIo p c s)

/-- Step `W0`: arm (R182). A failed arming owes no disarm. -/
def readW0 (s : State) : Out :=
  issue .armFallingEdge s fun a s =>
    match a with
    | .ok _ => goto .w1 s
    | .fail c => failWith .ioError .armFallingEdge c s

/-- Step `W1`: make the clock Low (R182). -/
def readW1 (s : State) : Out :=
  issue (.writeLevel .low) s fun a s =>
    match a with
    | .ok _ => goto .w2 s
    | .fail c => waitFailed (.writeLevel .low) c s

/-- Step `W2`: the one sample of the fast path (R183). -/
def readW2 (s : State) : Out :=
  issue .readLevel s fun a s =>
    match a with
    | .ok v =>
      match levelOf v with
      | .low => leaveWait .ready s
      | .high => goto .w3 s
    | .fail c => waitFailed .readLevel c s

/-- Step `W3`: one polling attempt (R184). -/
def readW3 (s : State) : Out :=
  issue .edgeWasDetected s fun a s =>
    match a with
    | .ok true => leaveWait .ready s
    | .ok false => goto .w4 { s with pollcnt := s.pollcnt + 1 }
    | .fail c => waitFailed .edgeWasDetected c s

/-- Step `W4`: the delay after a fruitless attempt, and the attempt count (R185). -/
def readW4 (s : State) : State :=
  if s.pollcnt = s.params.pollAttempts then leaveWait .timeout (delay s.params.tPoll s)
  else goto .w3 (delay s.params.tPoll s)

/-- A disarm step that ends the command with `code`, whatever the disarm answers (R187). `fail_io` sees `PEND` as it
was before the step. -/
def disarmAndComplete (code : Code) (a : Answer) (s : State) : State :=
  match a with
  | .ok _ => complete code { s with pend := .none }
  | .fail c => complete code { failIo .disarmEdge c s with pend := .none }

/-- The disarm step on the success path (R187): on to the shift phase, or a first failure. -/
def disarmAndShift (a : Answer) (s : State) : State :=
  match a with
  | .ok _ => goto .b0 { s with pend := .none }
  | .fail c => complete .ioError { failIo .disarmEdge c s with pend := .none }

/-- Step `W5`: disarm, then go where `PEND` says (R187). With `PEND = NONE` the rule gives no branch (log 25). -/
def readW5 (s : State) : Out :=
  match s.pend with
  | .ready => issue .disarmEdge s disarmAndShift
  | .timeout => issue .disarmEdge s (disarmAndComplete .timeoutError)
  | .ioerr => issue .disarmEdge s (disarmAndComplete .ioError)
  | .none => .fault .noPendingOutcome

/-- After the rising write of a pulse: step `high`, or `low` when `T_HIGH` = 0 leaves no delay step (R188, R191). -/
def afterRise (high low : Pos) (s : State) : State := goto (if s.params.tHigh = 0 then low else high) s

/-- Step `B4`: sample and accumulate (R189). -/
def readB4 (s : State) : Out :=
  issue .readLevel s fun a s =>
    match a with
    | .ok v =>
      goto (if s.bitcnt + 1 = Config.dataBits then .e0 else .b0)
        { s with acc := shiftIn s.acc (levelOf v), bitcnt := s.bitcnt + 1 }
    | .fail c => failWith .ioError .readLevel c s

/-- Successful completion (42_read.md R192). -/
def readDone (s : State) : State := complete .ok { s with result := signExtend s.params s.acc, resultValid := true }

/-- The counting of step `E3` (R191), after its delay. -/
def countPulse (s : State) : State :=
  if s.pulsecnt + 1 = s.endpulses.toNat then readDone { s with pulsecnt := s.pulsecnt + 1 }
  else goto .e0 { s with pulsecnt := s.pulsecnt + 1 }

/-- After the falling write of an end pulse: with `T_LOW` = 0 the counting shares this micro-step (R191). -/
def afterEndFall (s : State) : State := if s.params.tLow = 0 then countPulse s else goto .e3 s

/-- `READ` (42_read.md R180 to R193). -/
def execRead (s : State) : Out :=
  match s.pos with
  | .idle => readAccept s
  | .w0 => readW0 s
  | .w1 => readW1 s
  | .w2 => readW2 s
  | .w3 => readW3 s
  | .w4 => .next (readW4 s)
  | .w5 => readW5 s
  | .b0 => writeClock .high (afterRise .b1 .b2) s
  | .b1 => .next (goto .b2 (delay s.params.tHigh s))
  | .b2 => writeClock .low (fun s => goto (if s.params.tLow = 0 then .b4 else .b3) s) s
  | .b3 => .next (goto .b4 (delay s.params.tLow s))
  | .b4 => readB4 s
  | .e0 => writeClock .high (afterRise .e1 .e2) s
  | .e1 => .next (goto .e2 (delay s.params.tHigh s))
  | .e2 => writeClock .low afterEndFall s
  | .e3 => .next (countPulse (delay s.params.tLow s))
  | _ => .next s

end Sys2Proof.Machine
end

