-- ==== Sys2Proof/Machine/Dispatch.lean ====
section
/-! DEFINITION. The one dispatch: each command to its meaning. -/

namespace Sys2Proof.Machine

def exec (i : Instr) (s : State) : Host.Outcome State Fault Refusal :=
  match i with
  | .init cpin dpin => Sys2Proof.Machine.execInit cpin dpin s
  | .reset => Sys2Proof.Machine.execReset s
  | .shutdown => Sys2Proof.Machine.execShutdown s
  | .read => Sys2Proof.Machine.execRead s
  | .setgain n => Sys2Proof.Machine.execSetgain n s

end Sys2Proof.Machine
end

