-- ==== Sys2Proof/Machine/Step.lean ====
section
/-! DEFINITION. One micro-step of the machine, and the placing of a command word where the next step fetches it. -/

namespace Sys2Proof.Machine

/-- A micro-step in `IDLE`: the word offered on the command port, if any, is accepted (20_memory.md R67, 30_encoding.md
R97). With none offered one idle clock cycle passes. -/
def stepIdle (s : State) : Host.Outcome State Fault Refusal :=
  match offered s with
  | (none, s1) => .next (cycle s1)
  | (some w, s1) =>
    match decode w with
    | .error _ => .next (acceptIllegal s1)
    | .ok i => exec i s1

/-- One micro-step (00_scope.md R11): hardware reset if `rst_n` = 0, else the next micro-step of the command in progress,
else, in `IDLE`, what the command port carries. -/
def step (s : State) : Host.Outcome State Fault Refusal :=
  if s.inReset then .next (hardReset (tick s))
  else
    match s.running with
    | some i => exec i (tick s)
    | none => stepIdle (tick s)

/-- `s` with the low `nbits` bits of `w`, the bits above them zero, offered on the command port of an idle controller out
of reset, so that the next step accepts exactly that word (log 19). -/
def State.withFetchWord (s : State) (nbits w : Nat) : State :=
  { s with
    cmds := some (BitVec.ofNat 32 (w % 2 ^ nbits)) :: s.cmds
    rstn := true :: s.rstn
    pos := .idle
    busy := false
    pend := .none }

end Sys2Proof.Machine
end

