-- ==== Sys2Proof/Safety.lean ====
section
/-! DEFINITION. The terms claims are stated in: the parts of a state, what a command's trace holds, which primitive a
position issues, and what counts as a safe state. -/

namespace Sys2Proof.Machine

/-! ### Parts of a state, for frames -/

/-- The datapath registers (10_state.md R20): `ACC`, `RESULT`. -/
def State.datapath (s : State) : Sample × Reg := (s.acc, s.result)

/-- The loop counters and `PEND` (10_state.md R20). -/
def State.counters (s : State) : Nat × Nat × Nat × Pend := (s.bitcnt, s.pulsecnt, s.pollcnt, s.pend)

/-- `CFG` (10_state.md R20): `ENDPULSES`, `CPIN`, `DPIN`. -/
def State.config (s : State) : BitVec 2 × PinId × PinId := (s.endpulses, s.cpin, s.dpin)

/-- The two `STATUS` bits that outlive a command: `RESULT_VALID`, `INITIALISED`. -/
def State.validity (s : State) : Bool × Bool := (s.resultValid, s.initialised)

/-- The response fields (60_exceptions.md R225): `BUSY`, `DONE`, `CODE`, `CLEANUP_FAIL`, `IOCAUSE`. -/
def State.outcome (s : State) : Bool × Bool × Code × Bool × IoCause :=
  (s.busy, s.done, s.code, s.cleanupFail, s.iocause)

/-- The environment state the spec names (10_state.md R40 to R43): the pin directions and the pin layer. -/
def State.lines (s : State) : Dir × Dir × PinLayer := (s.dirClock, s.dirData, s.pins)

/-- What a command's micro-step never touches: parameters, the launch premise, the host's side of the ports. -/
def State.outside (s : State) : Params × Bool × List (Option Word) × List Bool := (s.params, s.ready, s.cmds, s.rstn)

/-- Every register of the controller but `STEP` keeps its value, and so does everything outside the block that no
micro-step of a command touches. -/
def SameRegisters (s t : State) : Prop :=
  t.datapath = s.datapath ∧ t.counters = s.counters ∧ t.config = s.config ∧ t.validity = s.validity ∧
    t.outcome = s.outcome ∧ t.outside = s.outside

/-- The pin directions, the clock line and the edge arming keep their values (10_state.md R40 to R42). -/
def SameLines (s t : State) : Prop :=
  t.dirClock = s.dirClock ∧ t.dirData = s.dirData ∧ t.clkLvl = s.clkLvl ∧ t.edgeArmed = s.edgeArmed

/-- The command in progress has completed with `c` (60_exceptions.md R230), with `CLEANUP_FAIL` = `cf` and `IOCAUSE` =
`io`; the response is on the port and in the log, over the trace `tr` of this micro-step. -/
def CompletedWith (s t : State) (c : Code) (cf : Bool) (io : IoCause) (tr : List Obs) : Prop :=
  t.outcome = (false, true, c, cf, io) ∧ t.pos = .idle ∧ t.rspValid = true ∧
    t.log = .response ⟨c, cf, t.result⟩ :: (tr ++ s.log)

/-- The outcome fields of a command that has been accepted and has started (41_lifecycle.md R150): `BUSY` = 1, the rest
cleared. -/
def freshOutcome : Bool × Bool × Code × Bool × IoCause := (true, false, .ok, false, .clear)

/-- The output enable of the `reference` binding is on (20_memory.md R66); nothing to say in the `abstract` one. -/
def State.drives (s : State) : Prop := ∀ r, s.pins = .ref r → r.pdSckOe = true

/-! ### Traces -/

/-- An event of a trace (00_scope.md R10): a primitive or a delay. -/
def Obs.isEvent : Obs → Bool
  | .prim _ _ _ | .delay _ => true
  | .response _ | .hardReset => false

/-- The trace, newest first, of the command in progress: the events since the last response or hardware reset. -/
def commandTrace (log : List Obs) : List Obs := log.takeWhile Obs.isEvent

/-- `W(c,H)`: a write of High that answered Ok. -/
def Obs.isRise : Obs → Bool
  | .prim (.writeLevel .high) _ (.ok _) => true
  | _ => false

/-- `W(c,L)`: a write of Low that answered Ok. -/
def Obs.isFall : Obs → Bool
  | .prim (.writeLevel .low) _ (.ok _) => true
  | _ => false

/-- `E(d)=f`: a polling attempt that found no edge. -/
def Obs.isFruitlessPoll : Obs → Bool
  | .prim .edgeWasDetected _ (.ok v) => !v
  | _ => false

/-- An attempt at all: any `EdgeWasDetected`. -/
def Obs.isPoll : Obs → Bool
  | .prim .edgeWasDetected _ _ => true
  | _ => false

/-- `Dly(t)`. -/
def Obs.isDelay (t : Nat) : Obs → Bool
  | .delay t' => decide (t' = t)
  | _ => false

/-- The level in `R(d)=l`, if the event is one. -/
def Obs.level? : Obs → Option Level
  | .prim .readLevel _ (.ok v) => some (levelOf v)
  | _ => none

/-- The levels `ReadLevel` answered in a trace, in the order of the trace. -/
def levelsIn (tr : List Obs) : List Level := tr.filterMap Obs.level?

/-- The accumulator after shifting in `ls`, first level first, from 0 (40_primitives.md R130). -/
def shiftAll (ls : List Level) : Sample := ls.foldl shiftIn 0

/-- The event of primitive `p`, answered `Ok` with value `v`, with the handles of `s` (00_scope.md R10). -/
def okEvent (s : State) (p : Prim) (v : Bool) : Obs := .prim p (s.handle p.pin) (.ok v)

/-- `Dly(t)`; none for `Delay(0)` (40_primitives.md R128). -/
def delayTrace (t : Nat) : List Obs := if t = 0 then [] else [.delay t]

/-- `P`, one clock pulse, oldest event first (40_primitives.md R129, 00_scope.md R10). -/
def pulseTrace (s : State) : List Obs :=
  [okEvent s (.writeLevel .high) false] ++ delayTrace s.params.tHigh
    ++ [okEvent s (.writeLevel .low) false] ++ delayTrace s.params.tLow

/-- `P;R(d)=b` (00_scope.md R10). -/
def bitTrace (s : State) (b : Bool) : List Obs := pulseTrace s ++ [okEvent s .readLevel b]

/-- The frame of 30_encoding.md R104: the 24 data pulses with their samples, then `n` end pulses. -/
def frameTrace (s : State) (bits : List Bool) (n : Nat) : List Obs :=
  bits.flatMap (bitTrace s) ++ (List.replicate n (pulseTrace s)).flatten

/-- `k` fruitless polling attempts, each with its delay (42_read.md R184, R185). -/
def pollTrace (s : State) (k : Nat) : List Obs :=
  (List.replicate k (okEvent s .edgeWasDetected false :: delayTrace s.params.tPoll)).flatten

/-- Answers of the pin layer for a frame: two writes and a sample for each data bit, two writes for each end pulse. -/
def frameReplies (bits : List Bool) (n : Nat) : List (Option Answer) :=
  bits.flatMap (fun b => [some (.ok false), some (.ok false), some (.ok b)])
    ++ List.replicate (2 * n) (some (.ok false))

/-! ### Positions -/

/-- The primitive a position issues (41_lifecycle.md R151, R153, R155; 42_read.md R182 to R191). -/
def Pos.prim : Pos → Option Prim
  | .i0 => some .configureInput
  | .i1 => some .configureOutput
  | .rs0 | .rs3 | .w1 | .b2 | .e2 => some (.writeLevel .low)
  | .rs1 | .s0 | .b0 | .e0 => some (.writeLevel .high)
  | .w0 => some .armFallingEdge
  | .w2 | .b4 => some .readLevel
  | .w3 => some .edgeWasDetected
  | .w5 => some .disarmEdge
  | .idle | .rs2 | .w4 | .b1 | .b3 | .e1 | .e3 => none

/-- The delay a position issues (41_lifecycle.md R153; 42_read.md R185, R188, R191), in ticks. -/
def State.delayDue (s : State) : Option Nat :=
  match s.pos with
  | .rs2 => some s.params.tResetHold
  | .w4 => some s.params.tPoll
  | .b1 | .e1 => some s.params.tHigh
  | .b3 | .e3 => some s.params.tLow
  | .idle | .i0 | .i1 | .rs0 | .rs1 | .rs3 | .s0 | .w0 | .w1 | .w2 | .w3 | .w5 | .b0 | .b2 | .b4 | .e0 | .e2 => none

/-- The answer the pin layer gives primitive `p` now; `none` while it gives none (20_memory.md R65). -/
def State.answerTo (s : State) (p : Prim) : Option Answer := (primitive p s).1

/-- The phases of a READ (42_read.md R180). -/
def Phase.isRead : Phase → Bool
  | .wait | .shift | .endpulse => true
  | .idle | .init | .reset | .shutdown => false

/-! ### Safe states -/

/-- The sampling margin holds where it is asked: in the `reference` binding (70_reset_and_hazards.md R277). -/
def PinLayer.keepsMargin (pins : PinLayer) (p : Params) : Bool :=
  match pins with
  | .abstr _ => true
  | .ref _ => p.samplingMargin

/-- The controller's invariant: what 10_state.md says of its registers in every state a run reaches. -/
structure Inv (s : State) : Prop where
  /-- the parameters meet their constraints (00_scope.md R6) -/
  params_wf : s.params.wf = true
  /-- `ENDPULSES` is 1, 2 or 3 (R28) -/
  gain : s.endpulses ≠ 0
  /-- `BUSY` says that a command is in progress (R30) -/
  busy : s.busy = decide (s.pos ≠ .idle)
  /-- `BUSY` and `DONE` are never both 1 (R30) -/
  done : s.done = true → s.pos = .idle
  /-- `CODE` is 0 until the command has completed (R30) -/
  code : s.done = false → s.code = .ok
  /-- `PEND` is not NONE exactly at `W5` (R27) -/
  pend : s.pend ≠ .none ↔ s.pos = .w5
  /-- during INIT the block is uninitialised (41_lifecycle.md R151) -/
  init : s.pos.phase = .init → s.initialised = false
  /-- every other command runs on an initialised block with two different pins (30_encoding.md R97, R273) -/
  running : s.pos.phase ≠ .idle → s.pos.phase ≠ .init → s.initialised = true ∧ s.cpin ≠ s.dpin
  /-- identifiers in use name pins (41_lifecycle.md R151) -/
  pins : s.initialised = true ∨ s.pos.phase = .init → pinValid s.params s.cpin = true ∧ pinValid s.params s.dpin = true
  /-- `RESULT_VALID` needs an INIT that succeeded, and no READ or INIT accepted since (R30) -/
  valid : s.resultValid = true → s.initialised = true ∧ s.pos.phase.isRead = false
  /-- `BITCNT` (R24): 0 before the shift phase, below 24 in it, 24 after it -/
  bits : s.bitcnt ≤ 24 ∧ (s.pos.phase = .wait → s.bitcnt = 0) ∧ (s.pos.phase = .shift → s.bitcnt < 24)
    ∧ (s.pos.phase = .endpulse → s.bitcnt = 24)
  /-- `ACC` is 0 until the first data bit (R21, 42_read.md R181) -/
  acc : s.pos.phase = .wait → s.acc = 0
  /-- `PULSECNT` (R25): 0 before the end pulses, below `ENDPULSES` during them -/
  pulses : s.pulsecnt ≤ 3 ∧ (s.pos.phase = .wait ∨ s.pos.phase = .shift → s.pulsecnt = 0)
    ∧ (s.pos.phase = .endpulse → s.pulsecnt < s.endpulses.toNat)
  /-- `POLLCNT` (R26): 0 before the first attempt, below the bound when one is made, at the bound after a timeout -/
  polls : s.pollcnt ≤ s.params.pollAttempts ∧ (s.pos = .w0 ∨ s.pos = .w1 ∨ s.pos = .w2 → s.pollcnt = 0)
    ∧ (s.pos = .w3 → s.pollcnt < s.params.pollAttempts) ∧ (s.pend = .timeout → s.pollcnt = s.params.pollAttempts)
  /-- while a command runs and nothing has failed, nothing is recorded as failed (R31, 40_primitives.md R133) -/
  clean : s.pos ≠ .idle → s.cleanupFail = false ∧ (s.pend ≠ .ioerr → s.iocause = .clear)
  /-- a `reference` build keeps the sampling margin (70_reset_and_hazards.md R277, log 29) -/
  margin : s.pins.keepsMargin s.params = true
  /-- `RESULT` has `RESULT_W` bits (R22) -/
  width : s.result.width = s.params.resultW
  /-- a recorded cause has `CAUSE_W` bits (R31) -/
  cause : s.iocause.cause.toNat < 2 ^ s.params.causeW

/-- The clock line where the protocol relies on it (42_read.md R182, R190; 70_reset_and_hazards.md R268): Low before
every pulse, High after the rising write of a pulse or of RESET. -/
structure ClockInv (s : State) : Prop where
  /-- `Low` after a completed write of Low -/
  low : s.pos = .rs1 ∨ s.pos = .w2 ∨ s.pos = .w3 ∨ s.pos = .w4 ∨ (s.pos = .w5 ∧ s.pend ≠ .ioerr) ∨ s.pos = .b0
    ∨ s.pos = .b3 ∨ s.pos = .b4 ∨ s.pos = .e0 ∨ s.pos = .e3 → s.clkLvl = .low
  /-- `High` after a completed write of High -/
  high : s.pos = .rs2 ∨ s.pos = .rs3 ∨ s.pos = .b1 ∨ s.pos = .b2 ∨ s.pos = .e1 ∨ s.pos = .e2 → s.clkLvl = .high
  /-- in the `reference` binding an initialised block drives the line (20_memory.md R66) -/
  driven : s.initialised = true → s.drives

/-- Edge detection is armed from `W1` to the disarm and is off while bits are shifted (10_state.md R42). -/
structure ArmInv (s : State) : Prop where
  armed : s.pos = .w1 ∨ s.pos = .w2 ∨ s.pos = .w3 ∨ s.pos = .w4 ∨ s.pos = .w5 → s.edgeArmed = .set
  disarmed : s.pos.phase = .shift ∨ s.pos.phase = .endpulse → s.edgeArmed = .clear

/-- The number of rising clock edges the command in progress has issued when it stands at `s.pos`. -/
def risesDue (s : State) : Nat :=
  match s.pos with
  | .b0 => s.bitcnt
  | .b1 | .b2 | .b3 | .b4 => s.bitcnt + 1
  | .e0 => 24 + s.pulsecnt
  | .e1 | .e2 | .e3 => 25 + s.pulsecnt
  | .rs2 | .rs3 => 1
  | .idle | .i0 | .i1 | .rs0 | .rs1 | .s0 | .w0 | .w1 | .w2 | .w3 | .w4 | .w5 => 0

/-- The number of falling writes a READ has issued at `s.pos`: the one of `W1`, then one per pulse. -/
def fallsDue (s : State) : Nat :=
  match s.pos with
  | .w2 | .w3 | .w4 | .w5 => 1
  | .b0 | .b1 | .b2 => s.bitcnt + 1
  | .b3 | .b4 => s.bitcnt + 2
  | .e0 | .e1 | .e2 => 25 + s.pulsecnt
  | .e3 => 26 + s.pulsecnt
  | .idle | .i0 | .i1 | .rs0 | .rs1 | .rs2 | .rs3 | .s0 | .w0 | .w1 => 0

/-- The trace of the command in progress agrees with its position: pulses, falling writes, polling attempts, and the
accumulator with the levels sampled since the one of `W2` (42_read.md R185, R189, R190, R195). -/
structure TraceInv (s : State) : Prop where
  /-- outside a command the trace is empty -/
  idle : s.pos = .idle ∨ s.pos = .i0 ∨ s.pos = .rs0 ∨ s.pos = .s0 ∨ s.pos = .w0 → commandTrace s.log = []
  rises : (commandTrace s.log).countP Obs.isRise = risesDue s
  falls : s.pos.phase.isRead = true → (s.pos = .w5 → s.pend ≠ .ioerr) →
    (commandTrace s.log).countP Obs.isFall = fallsDue s
  polls : s.pos.phase = .wait → (commandTrace s.log).countP Obs.isFruitlessPoll = s.pollcnt
  pollDelays : s.pos.phase = .wait → (commandTrace s.log).countP (Obs.isDelay s.params.tPoll)
    + (if s.pos = .w4 then 1 else 0) = s.pollcnt
  sampled : s.pos = .w3 ∨ s.pos = .w4 ∨ (s.pos = .w5 ∧ s.pend ≠ .ioerr) →
    (levelsIn (commandTrace s.log)).length = 1
  unsampled : s.pos = .w1 ∨ s.pos = .w2 → levelsIn (commandTrace s.log) = []
  acc : s.pos.phase = .shift ∨ s.pos.phase = .endpulse →
    ∃ l ls, levelsIn (commandTrace s.log).reverse = l :: ls ∧ ls.length = s.bitcnt ∧ s.acc = shiftAll ls

/-! ### The `reference` binding as a refinement of the `abstract` one (92_eei_decisions.md D21) -/

/-- What an abstract pin layer says of a line or a flag is unknown or right. -/
structure PinsCovered (c a : State) : Prop where
  clk : a.clkLvl = .unknown ∨ a.clkLvl = c.clkLvl
  armed : a.edgeArmed = .unknown ∨ a.edgeArmed = c.edgeArmed

/-- `a` is a state of the `abstract` binding with the controller, the host's side and the observation of `c`. -/
structure Refines (c a : State) : Prop where
  registers : SameRegisters c a
  pos : a.pos = c.pos
  rspValid : a.rspValid = c.rspValid
  dirs : a.dirClock = c.dirClock ∧ a.dirData = c.dirData
  log : a.log = c.log
  binding : ∃ ab, a.pins = .abstr ab
  covered : PinsCovered c a

/-- The `reference` binding, in which no primitive fails (20_memory.md R66). -/
structure NoFailure (s : State) : Prop where
  binding : ∃ r, s.pins = .ref r
  pend : s.pend ≠ .ioerr
  code : s.code ≠ .ioError
  cleanup : s.cleanupFail = false

end Sys2Proof.Machine
end

