-- ==== Sys2Proof/Certificates/Slice0/Obligations.lean ====
section
/-! DEFINITION. The statements for the provers, each `def Obligations.<Name> : Prop`; OBLIGATIONS.json lists them. -/

open Sys2Proof Sys2Proof.Machine

/-! ### Encoding -/

/-- Decoding the word of a command gives the command back, with every operand (30_encoding.md R91, R93 to R96). -/
def Obligations.DecodeEncodeIdentity : Prop :=
  ∀ i : Instr, decode (encode i) = .ok i

/-- A word that decodes is the word of what it decodes to: no two words are one command (30_encoding.md R92). -/
def Obligations.EncodeDecodeIdentity : Prop :=
  ∀ (w : Word) (i : Instr), decode w = .ok i → encode i = w

/-- 30_encoding.md R93: a word is the command of a row exactly when `(w & mask) = match`, and at most one row matches.
The operands are those of R94 and R95. -/
def Obligations.DecodeFollowsTheTable : Prop :=
  (∀ (w : Word), ∀ r ∈ opcodeRows, (w &&& r.mask = r.pattern ↔ ∃ i, decode w = .ok i ∧ i.mnemonic = r.mnemonic)) ∧
  (∀ (w : Word), ∀ r ∈ opcodeRows, ∀ r' ∈ opcodeRows, w &&& r.mask = r.pattern → w &&& r'.mask = r'.pattern → r = r') ∧
  (∀ (w : Word) (c d : PinId), decode w = .ok (.init c d) → c = w.extractLsb' 8 8 ∧ d = w.extractLsb' 16 8) ∧
  (∀ (w : Word) (n : BitVec 2), decode w = .ok (.setgain n) → n = w.extractLsb' 3 2)

/-- 30_encoding.md R98: which words are illegal, that the all-zero word is one, and what an accepted one does: it
completes at once with IllegalCommand, issues no primitive and changes only the response fields. -/
def Obligations.IllegalWords : Prop :=
  (∀ w : Word, ((∃ e, decode w = .error e) ↔
      (w.extractLsb' 0 3 = 0 ∨ w.extractLsb' 0 3 = 6 ∨ w.extractLsb' 0 3 = 7) ∨
      (w.extractLsb' 5 3 ≠ 0 ∨ w.extractLsb' 24 8 ≠ 0) ∨
      (w.extractLsb' 3 2 ≠ 0 ∧ w.extractLsb' 0 3 ≠ 5) ∨
      ((w.extractLsb' 8 8 ≠ 0 ∨ w.extractLsb' 16 8 ≠ 0) ∧ w.extractLsb' 0 3 ≠ 1))) ∧
  (∀ w : Word, ((∃ e, decode w = .error e) ↔ ∀ r ∈ opcodeRows, w &&& r.mask ≠ r.pattern)) ∧
  (∃ e, decode 0 = .error e) ∧
  (∀ (s : State) (w : Word) (rest : List (Option Word)) (e : Illegal),
    s.cmdReady = true → s.cmds = some w :: rest → decode w = .error e →
    ∃ t, step s = .next t ∧ CompletedWith s t .illegalCommand false .clear [] ∧
      t.datapath = s.datapath ∧ t.counters = s.counters ∧ t.config = s.config ∧ t.validity = s.validity ∧
      SameLines s t ∧ t.params = s.params ∧ t.ready = s.ready ∧ t.cmds = rest)

/-- Words written out from 30_encoding.md R93 and R106 decode to the commands they stand for. -/
def Obligations.DecodeWordsOfTheSpec : Prop :=
  decode 0x00060501 = .ok (.init 5 6) ∧ decode 0x00000002 = .ok .reset ∧ decode 0x00000003 = .ok .shutdown ∧
  decode 0x00000004 = .ok .read ∧ decode 0x0000000D = .ok (.setgain 1) ∧ decode 0x00000015 = .ok (.setgain 2) ∧
  decode 0x0000001D = .ok (.setgain 3) ∧ decode 0x00000005 = .ok (.setgain 0)

/-- The text forms and the pseudo-instructions (30_encoding.md R106, R108), operands that fit no field, and the two textual
pin operands of INIT, each with its prefix label or without it (R107): what is left is the number. The last clause rests on
the model's choice in log 27: `numberText` takes hexadecimal digits too, where R107 has a decimal number and R106 both. -/
def Obligations.TextFormsAssemble : Prop :=
  ∀ p : Params, p.wf = true →
    (∀ c d : Nat, c < 2 ^ p.pinIdW → d < 2 ^ p.pinIdW →
      (Asm.init c d).assemble p = some [BitVec.ofNat 32 (d * 65536 + c * 256 + 1)]) ∧
    (∀ n : Nat, n < 4 → (Asm.setgain n).assemble p = some [BitVec.ofNat 32 (n * 8 + 5)]) ∧
    Asm.reset.assemble p = some [0x00000002] ∧ Asm.shutdown.assemble p = some [0x00000003] ∧
    Asm.read.assemble p = some [0x00000004] ∧
    Asm.selectA128.assemble p = (Asm.setgain 1).assemble p ∧ Asm.selectB32.assemble p = (Asm.setgain 2).assemble p ∧
    Asm.selectA64.assemble p = (Asm.setgain 3).assemble p ∧
    Asm.recover.assemble p = some [0x00000002, 0x00000004] ∧ Asm.wake.assemble p = Asm.reset.assemble p ∧
    (∀ c d : Nat, 2 ^ p.pinIdW ≤ c ∨ 2 ^ p.pinIdW ≤ d → (Asm.init c d).assemble p = none) ∧
    (∀ n : Nat, 4 ≤ n → (Asm.setgain n).assemble p = none) ∧
    (∀ x y c d : List Char, (x = p.pinPrefix ++ c ∨ x = c ∧ ¬ p.pinPrefix <+: c) →
      (y = p.pinPrefix ++ d ∨ y = d ∧ ¬ p.pinPrefix <+: d) → initLine p x y =
      (match numberText c, numberText d with
        | some m, some n => (Asm.init m n).assemble p
        | _, _ => none))

/-! ### The step -/

/-- When the controller is idle and out of reset and the port carries a command's word, the step is that command's
meaning, on the state with the word taken and the past response gone (20_memory.md R67, 30_encoding.md R97). -/
def Obligations.StepRunsTheOfferedCommand : Prop :=
  ∀ (s : State) (w : Word) (rest : List (Option Word)) (i : Instr),
    s.cmdReady = true → s.cmds = some w :: rest → decode w = .ok i →
    step s = exec i { tick s with cmds := rest }

/-- While a command is in progress and `rst_n` is 1, the step is the next micro-step of that command
(10_state.md R23). -/
def Obligations.StepContinuesTheCommand : Prop :=
  (∀ (s : State) (i : Instr), s.inReset = false → s.running = some i → step s = exec i (tick s)) ∧
  (∀ s : State, (s.running = none ↔ s.phase = .idle) ∧ (s.phase = .init → s.running = some (.init s.cpin s.dpin)) ∧
    (s.phase = .reset → s.running = some .reset) ∧ (s.phase = .shutdown → s.running = some .shutdown) ∧
    (s.phase = .wait ∨ s.phase = .shift ∨ s.phase = .endpulse → s.running = some .read))

/-- While a command is in progress no word is accepted, whatever the port carries (20_memory.md R70). -/
def Obligations.BusyAcceptsNothing : Prop :=
  ∀ s t : State, s.phase ≠ .idle → step s = .next t → s.cmdReady = false ∧ t.cmds = s.cmds

/-- An idle micro-step in which nothing is offered changes no register and leaves no trace (20_memory.md R67). -/
def Obligations.IdleWaitsForACommand : Prop :=
  ∀ s : State, s.cmdReady = true → (s.cmds = [] ∨ ∃ rest, s.cmds = none :: rest) →
    ∃ t, step s = .next t ∧ t.datapath = s.datapath ∧ t.counters = s.counters ∧ t.config = s.config ∧
      t.validity = s.validity ∧ t.outcome = s.outcome ∧ t.pos = s.pos ∧ SameLines s t ∧ t.log = s.log ∧
      t.rspValid = false ∧ t.params = s.params ∧ t.ready = s.ready ∧ t.cmds = s.cmds.tail

/-- A micro-step with `rst_n` = 0 (10_state.md R36, 70_reset_and_hazards.md R260 to R262): every register at its reset
value, no response and no primitive, whatever was in progress. That an abstract line is `Unknown` afterwards is the
model's reading (log 9). -/
def Obligations.HardResetClearsTheController : Prop :=
  ∀ s : State, s.inReset = true →
    ∃ t, step s = .next t ∧ s.cmdReady = false ∧
      t.datapath = (0, .zero s.params.resultW) ∧ t.counters = (0, 0, 0, .none) ∧ t.config = (1, 0, 0) ∧ t.validity = (false, false) ∧
      t.outcome = (false, false, .ok, false, .clear) ∧ t.pos = .idle ∧ t.rspValid = false ∧
      t.dirClock = .unconfigured ∧ t.dirData = .unconfigured ∧ t.log = .hardReset :: s.log ∧
      t.params = s.params ∧ t.cmds = s.cmds ∧
      (∀ a, s.pins = .abstr a → t.clkLvl = .unknown ∧ t.edgeArmed = .unknown) ∧
      (∀ r, s.pins = .ref r → ∃ r', t.pins = .ref r' ∧ r'.pdSck = false ∧ r'.pdSckOe = false ∧
        r'.edgeArmed = false ∧ r'.edgeLatch = false)

/-- The machine after hardware reset (10_state.md R36), as the host reads it (95_test_vectors.md part 3): `CFG` = 1, the
other registers 0, ready for a command. The `abstract` binding is the default of 00_scope.md R6. -/
def Obligations.ResetStateReadsAsStated : Prop :=
  State.reset.hostRead 0 = .word 0 ∧ State.reset.hostRead 1 = .zero 32 ∧ State.reset.hostRead 2 = .word 1 ∧
  State.reset.hostRead 3 = .word 0 ∧
  State.reset.phase = .idle ∧ State.reset.datapath = (0, .zero 32) ∧ State.reset.counters = (0, 0, 0, .none) ∧
  State.reset.config = (1, 0, 0) ∧ State.reset.cmdReady = true ∧ State.reset.rspValid = false ∧
  State.reset.clkLvl = .unknown ∧ State.reset.edgeArmed = .unknown ∧ State.reset.edgeLatch = .unknown ∧
  State.reset.dirClock = .unconfigured ∧ State.reset.dirData = .unconfigured

/-! ### Acceptance and the lifecycle commands -/

/-- 60_exceptions.md R225: RESET, SHUTDOWN, READ and SETGAIN on an uninitialised block complete at once with
NotInitialised, issue no primitive and change nothing but the response fields. -/
def Obligations.NotInitialisedRefusals : Prop :=
  ∀ (i : Instr) (s : State), (∀ c d, i ≠ .init c d) → s.pos = .idle → s.initialised = false →
    ∃ t, exec i s = .next t ∧ CompletedWith s t .notInitialised false .clear [] ∧
      t.datapath = s.datapath ∧ t.counters = s.counters ∧ t.config = s.config ∧ t.validity = s.validity ∧
      SameLines s t ∧ t.outside = s.outside

/-- The acceptance step of INIT (41_lifecycle.md R151): the clock identifier is resolved first, then the data
identifier; only when both resolve does the micro-program start. (On an initialised block whose two handles name one pin it
is refused: RefusedSituations.) -/
def Obligations.InitAcceptance : Prop :=
  ∀ (c d : PinId) (s : State), s.pos = .idle → (s.initialised = true → s.cpin ≠ s.dpin) →
    (pinValid s.params c = true → pinValid s.params d = true → s.ready = true →
      ∃ t, exec (.init c d) s = .next t ∧ t.pos = .i0 ∧ t.config = (s.endpulses, c, d) ∧ t.validity = (false, false) ∧
        t.outcome = freshOutcome ∧ t.datapath = s.datapath ∧ t.counters = s.counters ∧ SameLines s t ∧
        t.log = s.log ∧ t.outside = s.outside) ∧
    (pinValid s.params c = false →
      ∃ t, exec (.init c d) s = .next t ∧ CompletedWith s t .configError false ⟨.none, .clock, 0⟩ [] ∧
        t.validity = (false, false) ∧ t.config = s.config ∧ t.datapath = s.datapath ∧ t.counters = s.counters ∧
        SameLines s t ∧ t.outside = s.outside) ∧
    (pinValid s.params c = true → pinValid s.params d = false →
      ∃ t, exec (.init c d) s = .next t ∧ CompletedWith s t .configError false ⟨.none, .data, 0⟩ [] ∧
        t.validity = (false, false) ∧ t.config = s.config ∧ t.datapath = s.datapath ∧ t.counters = s.counters ∧
        SameLines s t ∧ t.outside = s.outside)

/-- Steps `I0` and `I1` of INIT (41_lifecycle.md R151, R152(a), (b)): the data pin, then the clock pin; ENDPULSES is 1
and the block initialised at the end; a failed primitive ends in ConfigError with its cause. No level is written and
edge detection is not touched; in the `reference` binding enabling the output drives what the register holds. After a failure the
direction it would have set is unknown (60_exceptions.md R231; 93 U4). -/
def Obligations.InitMicroProgram : Prop :=
  ∀ (c d : PinId) (s : State), s.ready = true → s.pend = .none → s.cleanupFail = false →
    (∀ v, s.pos = .i0 → s.answerTo .configureInput = some (.ok v) →
      ∃ t, exec (.init c d) s = .next t ∧ t.pos = .i1 ∧ SameRegisters s t ∧ t.dirData = .input ∧
        t.dirClock = s.dirClock ∧ t.clkLvl = s.clkLvl ∧ t.edgeArmed = s.edgeArmed ∧
        t.log = .prim .configureInput s.dpin (.ok v) :: s.log) ∧
    (∀ v, s.pos = .i1 → s.answerTo .configureOutput = some (.ok v) →
      ∃ t, exec (.init c d) s = .next t ∧
        CompletedWith s t .ok false s.iocause [.prim .configureOutput s.cpin (.ok v)] ∧
        t.config = (1, s.cpin, s.dpin) ∧ t.validity = (s.resultValid, true) ∧ t.datapath = s.datapath ∧
        t.counters = s.counters ∧ t.dirClock = .output ∧ t.dirData = s.dirData ∧ t.edgeArmed = s.edgeArmed ∧
        (∀ a, s.pins = .abstr a → t.clkLvl = s.clkLvl) ∧
        (∀ r, s.pins = .ref r → t.clkLvl = driven r.pdSck) ∧ t.outside = s.outside) ∧
    (∀ (p : Prim) (k : Cause), (s.pos = .i0 ∧ p = .configureInput ∨ s.pos = .i1 ∧ p = .configureOutput) →
      s.answerTo p = some (.fail k) →
      ∃ t, exec (.init c d) s = .next t ∧
        CompletedWith s t .configError false ⟨p.kind, p.pin, k⟩ [.prim p (s.handle p.pin) (.fail k)] ∧
        (s.pos = .i0 → t.dirData = .unknown ∧ t.dirClock = s.dirClock) ∧
        (s.pos = .i1 → t.dirClock = .unknown ∧ t.dirData = s.dirData) ∧
        t.validity = s.validity ∧ t.config = s.config ∧ t.datapath = s.datapath ∧ t.counters = s.counters ∧
        t.clkLvl = s.clkLvl ∧ t.edgeArmed = s.edgeArmed ∧ t.outside = s.outside)

/-- RESET (41_lifecycle.md R153): acceptance, the two writes, the timed High hold, and the last write that completes it
with the clock Low. On the line: `drives` says that a `reference` output is enabled. The hold ends in its one step
(log 28). -/
def Obligations.ResetMicroProgram : Prop :=
  ∀ s : State, s.ready = true →
    (s.pos = .idle → s.initialised = true → s.cpin ≠ s.dpin →
      ∃ t, exec .reset s = .next t ∧ t.pos = .rs0 ∧ t.outcome = freshOutcome ∧ t.datapath = s.datapath ∧
        t.counters = s.counters ∧ t.config = s.config ∧ t.validity = s.validity ∧ SameLines s t ∧ t.log = s.log ∧
        t.outside = s.outside) ∧
    (∀ v, s.pos = .rs0 → s.answerTo (.writeLevel .low) = some (.ok v) →
      ∃ t, exec .reset s = .next t ∧ t.pos = .rs1 ∧ SameRegisters s t ∧ (s.drives → t.clkLvl = .low) ∧
        t.edgeArmed = s.edgeArmed ∧ t.log = .prim (.writeLevel .low) s.cpin (.ok v) :: s.log) ∧
    (∀ v, s.pos = .rs1 → s.answerTo (.writeLevel .high) = some (.ok v) →
      ∃ t, exec .reset s = .next t ∧ t.pos = .rs2 ∧ SameRegisters s t ∧ (s.drives → t.clkLvl = .high) ∧
        t.edgeArmed = s.edgeArmed ∧ t.log = .prim (.writeLevel .high) s.cpin (.ok v) :: s.log) ∧
    (s.pos = .rs2 →
      ∃ t, exec .reset s = .next t ∧ t.pos = .rs3 ∧ SameRegisters s t ∧ SameLines s t ∧
        t.log = delayTrace s.params.tResetHold ++ s.log) ∧
    (∀ v, s.pos = .rs3 → s.answerTo (.writeLevel .low) = some (.ok v) →
      ∃ t, exec .reset s = .next t ∧
        CompletedWith s t .ok s.cleanupFail s.iocause [.prim (.writeLevel .low) s.cpin (.ok v)] ∧
        (s.drives → t.clkLvl = .low) ∧ t.edgeArmed = s.edgeArmed ∧ t.datapath = s.datapath ∧
        t.counters = s.counters ∧ t.config = s.config ∧ t.validity = s.validity ∧ t.outside = s.outside)

/-- SHUTDOWN (41_lifecycle.md R155): acceptance, then the one write of High, with no delay; nothing else changes. -/
def Obligations.ShutdownMicroProgram : Prop :=
  ∀ s : State, s.ready = true →
    (s.pos = .idle → s.initialised = true → s.cpin ≠ s.dpin →
      ∃ t, exec .shutdown s = .next t ∧ t.pos = .s0 ∧ t.outcome = freshOutcome ∧ t.datapath = s.datapath ∧
        t.counters = s.counters ∧ t.config = s.config ∧ t.validity = s.validity ∧ SameLines s t ∧ t.log = s.log ∧
        t.outside = s.outside) ∧
    (∀ v, s.pos = .s0 → s.answerTo (.writeLevel .high) = some (.ok v) →
      ∃ t, exec .shutdown s = .next t ∧
        CompletedWith s t .ok s.cleanupFail s.iocause [.prim (.writeLevel .high) s.cpin (.ok v)] ∧
        (s.drives → t.clkLvl = .high) ∧ t.edgeArmed = s.edgeArmed ∧ t.datapath = s.datapath ∧
        t.counters = s.counters ∧ t.config = s.config ∧ t.validity = s.validity ∧ t.outside = s.outside)

/-- SETGAIN (41_lifecycle.md R156, 30_encoding.md R99): it is all acceptance; 1, 2 and 3 are written to ENDPULSES, 0 ends
with ConfigError; no primitive is issued and the lines stay. (With both handles on one pin it is refused:
RefusedSituations.) -/
def Obligations.SetgainWritesTheSelector : Prop :=
  ∀ (n : BitVec 2) (s : State), s.pos = .idle → s.initialised = true → s.cpin ≠ s.dpin →
    ∃ t, exec (.setgain n) s = .next t ∧
      (n ≠ 0 → CompletedWith s t .ok false .clear [] ∧ t.config = (n, s.cpin, s.dpin)) ∧
      (n = 0 → CompletedWith s t .configError false .clear [] ∧ t.config = s.config) ∧
      t.datapath = s.datapath ∧ t.counters = s.counters ∧ t.validity = s.validity ∧ SameLines s t ∧
      t.outside = s.outside

/-! ### READ, micro-step by micro-step -/

/-- 42_read.md R181: the acceptance of READ. `RESULT` keeps its old bits but is marked invalid; `ACC`, the counters and
`PEND` are cleared. -/
def Obligations.ReadAcceptance : Prop :=
  ∀ s : State, s.pos = .idle → s.initialised = true → s.ready = true → s.cpin ≠ s.dpin →
    ∃ t, exec .read s = .next t ∧ t.phase = .wait ∧ t.pos = .w0 ∧ t.outcome = freshOutcome ∧
      t.validity = (false, true) ∧ t.datapath = (0, s.result) ∧ t.counters = (0, 0, 0, .none) ∧
      t.config = s.config ∧ SameLines s t ∧ t.log = s.log ∧ t.outside = s.outside

/-- Steps `W0` and `W1` (42_read.md R182): arm, then make the clock Low. A failed arming ends the READ with IoError and no
disarm, and leaves the arming unknown; a failed write goes to the disarm step with the failure recorded, and leaves the
clock unknown (60_exceptions.md R231). -/
def Obligations.ReadArmsThenLowersTheClock : Prop :=
  ∀ s : State, s.ready = true → s.pend = .none →
    (∀ v, s.pos = .w0 → s.answerTo .armFallingEdge = some (.ok v) →
      ∃ t, exec .read s = .next t ∧ t.pos = .w1 ∧ SameRegisters s t ∧ t.edgeArmed = .set ∧ t.clkLvl = s.clkLvl ∧
        t.log = .prim .armFallingEdge s.dpin (.ok v) :: s.log) ∧
    (∀ k, s.pos = .w0 → s.answerTo .armFallingEdge = some (.fail k) →
      ∃ t, exec .read s = .next t ∧
        CompletedWith s t .ioError s.cleanupFail ⟨.armFallingEdge, .data, k⟩ [.prim .armFallingEdge s.dpin (.fail k)] ∧
        t.datapath = s.datapath ∧ t.counters = s.counters ∧ t.config = s.config ∧ t.validity = s.validity ∧
        t.clkLvl = s.clkLvl ∧ t.edgeArmed = .unknown ∧ t.outside = s.outside) ∧
    (∀ v, s.pos = .w1 → s.answerTo (.writeLevel .low) = some (.ok v) →
      ∃ t, exec .read s = .next t ∧ t.pos = .w2 ∧ SameRegisters s t ∧ (s.drives → t.clkLvl = .low) ∧
        t.edgeArmed = s.edgeArmed ∧ t.log = .prim (.writeLevel .low) s.cpin (.ok v) :: s.log) ∧
    (∀ k, s.pos = .w1 → s.answerTo (.writeLevel .low) = some (.fail k) →
      ∃ t, exec .read s = .next t ∧ t.pos = .w5 ∧ t.counters = (s.bitcnt, s.pulsecnt, s.pollcnt, .ioerr) ∧
        t.outcome = (s.busy, s.done, s.code, s.cleanupFail, ⟨.writeLevel, .clock, k⟩) ∧ t.datapath = s.datapath ∧
        t.config = s.config ∧ t.validity = s.validity ∧ t.clkLvl = .unknown ∧ t.edgeArmed = s.edgeArmed ∧
        t.log = .prim (.writeLevel .low) s.cpin (.fail k) :: s.log ∧ t.outside = s.outside)

/-- Step `W2` (42_read.md R183): the one level sample. Low goes on at once, with no polling; High goes to the first
attempt; a failure goes to the disarm step. -/
def Obligations.ReadSamplesOnceBeforePolling : Prop :=
  ∀ s : State, s.ready = true → s.pend = .none → s.pos = .w2 →
    (s.answerTo .readLevel = some (.ok false) →
      ∃ t, exec .read s = .next t ∧ t.pos = .w5 ∧ t.counters = (s.bitcnt, s.pulsecnt, s.pollcnt, .ready) ∧
        t.datapath = s.datapath ∧ t.config = s.config ∧ t.validity = s.validity ∧ t.outcome = s.outcome ∧
        SameLines s t ∧ t.log = .prim .readLevel s.dpin (.ok false) :: s.log ∧ t.outside = s.outside) ∧
    (s.answerTo .readLevel = some (.ok true) →
      ∃ t, exec .read s = .next t ∧ t.pos = .w3 ∧ SameRegisters s t ∧ SameLines s t ∧
        t.log = .prim .readLevel s.dpin (.ok true) :: s.log) ∧
    (∀ k, s.answerTo .readLevel = some (.fail k) →
      ∃ t, exec .read s = .next t ∧ t.pos = .w5 ∧ t.counters = (s.bitcnt, s.pulsecnt, s.pollcnt, .ioerr) ∧
        t.outcome = (s.busy, s.done, s.code, s.cleanupFail, ⟨.readLevel, .data, k⟩) ∧ t.datapath = s.datapath ∧
        t.config = s.config ∧ t.validity = s.validity ∧ SameLines s t ∧
        t.log = .prim .readLevel s.dpin (.fail k) :: s.log ∧ t.outside = s.outside)

/-- Steps `W3` and `W4` (42_read.md R184, R185): one attempt, check first, then the delay; a fruitless attempt is counted;
the wait times out when the count reaches `POLL_ATTEMPTS`. The delay ends in its one step (log 28). -/
def Obligations.ReadPollsThenDelays : Prop :=
  ∀ s : State, s.ready = true → s.pend = .none →
    (s.pos = .w3 → s.answerTo .edgeWasDetected = some (.ok true) →
      ∃ t, exec .read s = .next t ∧ t.pos = .w5 ∧ t.counters = (s.bitcnt, s.pulsecnt, s.pollcnt, .ready) ∧
        t.datapath = s.datapath ∧ t.config = s.config ∧ t.validity = s.validity ∧ t.outcome = s.outcome ∧
        SameLines s t ∧ t.log = .prim .edgeWasDetected s.dpin (.ok true) :: s.log ∧ t.outside = s.outside) ∧
    (s.pos = .w3 → s.answerTo .edgeWasDetected = some (.ok false) →
      ∃ t, exec .read s = .next t ∧ t.pos = .w4 ∧ t.counters = (s.bitcnt, s.pulsecnt, s.pollcnt + 1, .none) ∧
        t.datapath = s.datapath ∧ t.config = s.config ∧ t.validity = s.validity ∧ t.outcome = s.outcome ∧
        SameLines s t ∧ t.log = .prim .edgeWasDetected s.dpin (.ok false) :: s.log ∧ t.outside = s.outside) ∧
    (∀ k, s.pos = .w3 → s.answerTo .edgeWasDetected = some (.fail k) →
      ∃ t, exec .read s = .next t ∧ t.pos = .w5 ∧ t.counters = (s.bitcnt, s.pulsecnt, s.pollcnt, .ioerr) ∧
        t.outcome = (s.busy, s.done, s.code, s.cleanupFail, ⟨.edgeWasDetected, .data, k⟩) ∧ t.datapath = s.datapath ∧
        t.config = s.config ∧ t.validity = s.validity ∧ SameLines s t ∧
        t.log = .prim .edgeWasDetected s.dpin (.fail k) :: s.log ∧ t.outside = s.outside) ∧
    (s.pos = .w4 →
      ∃ t, exec .read s = .next t ∧
        (s.pollcnt = s.params.pollAttempts →
          t.pos = .w5 ∧ t.counters = (s.bitcnt, s.pulsecnt, s.pollcnt, .timeout)) ∧
        (s.pollcnt ≠ s.params.pollAttempts → t.pos = .w3 ∧ t.counters = s.counters) ∧
        t.datapath = s.datapath ∧ t.config = s.config ∧ t.validity = s.validity ∧ t.outcome = s.outcome ∧
        SameLines s t ∧ t.log = delayTrace s.params.tPoll ++ s.log ∧ t.outside = s.outside)

/-- Step `W5` (42_read.md R187), all six branches: on READY to the shift phase or, when the disarm fails, IoError with the
disarm as its cause; on TIMEOUT and IOERR the earlier outcome stands and a failed disarm shows in `CLEANUP_FAIL`. A failed
disarm leaves the arming unknown (60_exceptions.md R231; 93 U4). -/
def Obligations.ReadDisarmsOnEveryExit : Prop :=
  ∀ s : State, s.ready = true → s.pos = .w5 →
    (∀ v, s.answerTo .disarmEdge = some (.ok v) →
      (s.pend = .ready → ∃ t, exec .read s = .next t ∧ t.phase = .shift ∧ t.pos = .b0 ∧
        t.counters = (s.bitcnt, s.pulsecnt, s.pollcnt, .none) ∧ t.datapath = s.datapath ∧ t.config = s.config ∧
        t.validity = s.validity ∧ t.outcome = s.outcome ∧ t.edgeArmed = .clear ∧ t.clkLvl = s.clkLvl ∧
        t.log = .prim .disarmEdge s.dpin (.ok v) :: s.log ∧ t.outside = s.outside) ∧
      (∀ p c, (p = .timeout ∧ c = .timeoutError ∨ p = .ioerr ∧ c = .ioError) → s.pend = p →
        ∃ t, exec .read s = .next t ∧
          CompletedWith s t c s.cleanupFail s.iocause [.prim .disarmEdge s.dpin (.ok v)] ∧
          t.counters = (s.bitcnt, s.pulsecnt, s.pollcnt, .none) ∧ t.datapath = s.datapath ∧ t.config = s.config ∧
          t.validity = s.validity ∧ t.edgeArmed = .clear ∧ t.clkLvl = s.clkLvl ∧ t.outside = s.outside)) ∧
    (∀ k, s.answerTo .disarmEdge = some (.fail k) →
      (s.pend = .ready → ∃ t, exec .read s = .next t ∧
        CompletedWith s t .ioError s.cleanupFail ⟨.disarmEdge, .data, k⟩ [.prim .disarmEdge s.dpin (.fail k)] ∧
        t.counters = (s.bitcnt, s.pulsecnt, s.pollcnt, .none) ∧ t.datapath = s.datapath ∧ t.config = s.config ∧
        t.validity = s.validity ∧ t.edgeArmed = .unknown ∧ t.clkLvl = s.clkLvl ∧ t.outside = s.outside) ∧
      (∀ p c, (p = .timeout ∧ c = .timeoutError ∨ p = .ioerr ∧ c = .ioError) → s.pend = p →
        ∃ t, exec .read s = .next t ∧
          CompletedWith s t c true s.iocause [.prim .disarmEdge s.dpin (.fail k)] ∧
          t.counters = (s.bitcnt, s.pulsecnt, s.pollcnt, .none) ∧ t.datapath = s.datapath ∧ t.config = s.config ∧
          t.validity = s.validity ∧ t.edgeArmed = .unknown ∧ t.clkLvl = s.clkLvl ∧ t.outside = s.outside))

/-- The pulses of a READ (40_primitives.md R129; 42_read.md R188, R191): the rising write, the High time, the falling write
and the Low time of a data pulse, and the rising write, High time and falling write of an end pulse. A delay of 0 is no
micro-step, and every other one ends in its one step (log 28). -/
def Obligations.ReadPulses : Prop :=
  ∀ s : State, s.ready = true →
    (∀ v, s.answerTo (.writeLevel .high) = some (.ok v) → (s.pos = .b0 ∨ s.pos = .e0) →
      ∃ t, exec .read s = .next t ∧
        (s.pos = .b0 → t.pos = if s.params.tHigh = 0 then .b2 else .b1) ∧
        (s.pos = .e0 → t.pos = if s.params.tHigh = 0 then .e2 else .e1) ∧
        SameRegisters s t ∧ (s.drives → t.clkLvl = .high) ∧ t.edgeArmed = s.edgeArmed ∧
        t.log = .prim (.writeLevel .high) s.cpin (.ok v) :: s.log) ∧
    ((s.pos = .b1 ∨ s.pos = .e1) →
      ∃ t, exec .read s = .next t ∧ (s.pos = .b1 → t.pos = .b2) ∧ (s.pos = .e1 → t.pos = .e2) ∧
        SameRegisters s t ∧ SameLines s t ∧ t.log = delayTrace s.params.tHigh ++ s.log) ∧
    (∀ v, s.answerTo (.writeLevel .low) = some (.ok v) → (s.pos = .b2 ∨ s.pos = .e2 ∧ s.params.tLow ≠ 0) →
      ∃ t, exec .read s = .next t ∧
        (s.pos = .b2 → t.pos = if s.params.tLow = 0 then .b4 else .b3) ∧ (s.pos = .e2 → t.pos = .e3) ∧
        SameRegisters s t ∧ (s.drives → t.clkLvl = .low) ∧ t.edgeArmed = s.edgeArmed ∧
        t.log = .prim (.writeLevel .low) s.cpin (.ok v) :: s.log) ∧
    (s.pos = .b3 →
      ∃ t, exec .read s = .next t ∧ t.pos = .b4 ∧ SameRegisters s t ∧ SameLines s t ∧
        t.log = delayTrace s.params.tLow ++ s.log)

/-- Step `B4` (42_read.md R189): the sample is shifted into `ACC` and counted; the 24th sample ends the shift phase. -/
def Obligations.ReadSamplesABit : Prop :=
  ∀ (s : State) (v : Bool), s.ready = true → s.pos = .b4 → s.answerTo .readLevel = some (.ok v) →
    ∃ t, exec .read s = .next t ∧
      t.datapath = (shiftIn s.acc (if v then .high else .low), s.result) ∧
      t.counters = (s.bitcnt + 1, s.pulsecnt, s.pollcnt, s.pend) ∧
      t.pos = (if s.bitcnt + 1 = 24 then .e0 else .b0) ∧ t.config = s.config ∧ t.validity = s.validity ∧
      t.outcome = s.outcome ∧ SameLines s t ∧ t.log = .prim .readLevel s.dpin (.ok v) :: s.log ∧
      t.outside = s.outside

/-- The counting of an end pulse and the completion of READ (42_read.md R191, R192): `PULSECNT` is counted up; when it
reaches `ENDPULSES`, `RESULT` gets the sign-extended accumulator, `RESULT_VALID` is set and the READ completes with Ok,
in the micro-step of `E3`, or of `E2` when `T_LOW` is 0, whose write makes the clock Low (10_state.md R40). The
delay of `E3` ends in it (log 28). -/
def Obligations.ReadCountsEndPulsesAndCompletes : Prop :=
  ∀ (s : State) (tr : List Obs), s.ready = true →
    (s.pos = .e3 ∧ tr = delayTrace s.params.tLow ∨
      s.pos = .e2 ∧ s.params.tLow = 0 ∧
        ∃ v, s.answerTo (.writeLevel .low) = some (.ok v) ∧ tr = [.prim (.writeLevel .low) s.cpin (.ok v)]) →
    ∃ t, exec .read s = .next t ∧ t.counters = (s.bitcnt, s.pulsecnt + 1, s.pollcnt, s.pend) ∧
      t.config = s.config ∧ t.edgeArmed = s.edgeArmed ∧ t.outside = s.outside ∧
      (s.pos = .e3 → t.clkLvl = s.clkLvl) ∧ (s.pos = .e2 → s.drives → t.clkLvl = .low) ∧
      (s.pulsecnt + 1 = s.endpulses.toNat →
        CompletedWith s t .ok s.cleanupFail s.iocause tr ∧ t.datapath = (s.acc, signExtend s.params s.acc) ∧
          t.validity = (true, s.initialised)) ∧
      (s.pulsecnt + 1 ≠ s.endpulses.toNat →
        t.pos = .e0 ∧ t.outcome = s.outcome ∧ t.datapath = s.datapath ∧ t.validity = s.validity ∧
          t.log = tr ++ s.log)

/-- A failing primitive of RESET, SHUTDOWN, and of READ's shift and end-pulse phases ends the command in the same
micro-step with IoError and its cause (60_exceptions.md R222, R231; 42_read.md R193; 41_lifecycle.md R153, R155). -/
def Obligations.FailingPrimitiveEndsTheCommand : Prop :=
  ∀ (s : State) (i : Instr) (p : Prim) (k : Cause), s.ready = true → s.pend = .none → s.running = some i →
    (s.phase = .reset ∨ s.phase = .shutdown ∨ s.phase = .shift ∨ s.phase = .endpulse) →
    s.pos.prim = some p → s.answerTo p = some (.fail k) →
    ∃ t, exec i s = .next t ∧
      CompletedWith s t .ioError s.cleanupFail ⟨p.kind, p.pin, k⟩ [.prim p (s.handle p.pin) (.fail k)] ∧
      t.datapath = s.datapath ∧ t.counters = s.counters ∧ t.config = s.config ∧ t.validity = s.validity ∧
      t.clkLvl = (if p.pin = .clock then .unknown else s.clkLvl) ∧ t.edgeArmed = s.edgeArmed ∧
      t.outside = s.outside

/-- A micro-step does not end until its answer has arrived (20_memory.md R65; 93_implementation_defined.md U11): with no
answer every register, the position, the lines and the trace stay. -/
def Obligations.UnansweredPrimitiveWaits : Prop :=
  ∀ (s : State) (i : Instr) (p : Prim), s.ready = true → s.running = some i → s.pos.prim = some p →
    (s.pos = .w5 → s.pend ≠ .none) → s.answerTo p = none →
    ∃ t, exec i s = .next t ∧ t.pos = s.pos ∧ SameRegisters s t ∧ t.rspValid = s.rspValid ∧
      t.lines = s.lines ∧ t.log = s.log

/-- Where the model refuses because the spec says a model refuses it: with both handles of an initialised block on one
pin, every command (41_lifecycle.md R152(e), 70_reset_and_hazards.md R273); without `PinLayerReady`, every primitive and
every acceptance that starts a micro-program (R266; where it is refused is the model's choice, log 7 and log 22). -/
def Obligations.RefusedSituations : Prop :=
  (∀ (s : State) (i : Instr), s.pos = .idle → s.initialised = true → s.cpin = s.dpin →
    exec i s = .refused .sharedPins) ∧
  (∀ (s : State) (i : Instr) (p : Prim), s.ready = false → s.running = some i → s.pos.prim = some p →
    (s.pos = .w5 → s.pend ≠ .none) → exec i s = .refused .pinLayerNotReady) ∧
  (∀ (s : State) (i : Instr), s.ready = false → s.pos = .idle → s.initialised = true → s.cpin ≠ s.dpin →
    (i = .reset ∨ i = .shutdown ∨ i = .read) → exec i s = .refused .pinLayerNotReady) ∧
  (∀ (s : State) (c d : PinId), s.ready = false → s.pos = .idle → (s.initialised = true → s.cpin ≠ s.dpin) →
    pinValid s.params c = true → pinValid s.params d = true → exec (.init c d) s = .refused .pinLayerNotReady)

/-! ### Whole commands, from the offered word to the response -/

/-- INIT with both pins valid and both primitives answered Ok (41_lifecycle.md R151): its trace, its response, `CFG` and the
right column of 10_state.md R36. -/
def Obligations.InitRun : Prop :=
  ∀ (s : State) (a : AbstractPins) (c d : PinId) (cs : List (Option Word)) (rest : List (Option Answer)),
    Inv s → s.pos = .idle → s.ready = true → s.rstn = [] → s.pins = .abstr a →
    (s.initialised = true → s.cpin ≠ s.dpin) → pinValid s.params c = true → pinValid s.params d = true →
    s.cmds = some (encode (.init c d)) :: cs → s.replies = some (.ok false) :: some (.ok false) :: rest →
    ∃ t, Sys2Proof.core.run 3 s = .next t ∧ t.pos = .idle ∧ t.config = (1, c, d) ∧ t.validity = (false, true) ∧
      t.outcome = (false, true, .ok, false, .clear) ∧ t.datapath = s.datapath ∧ t.counters = s.counters ∧
      t.dirData = .input ∧ t.dirClock = .output ∧ t.pins = s.pins ∧ t.cmds = cs ∧ t.replies = rest ∧
      t.log = .response ⟨.ok, false, s.result⟩ :: .prim .configureOutput c (.ok false) ::
        .prim .configureInput d (.ok false) :: s.log

/-- RESET with its three writes answered Ok (41_lifecycle.md R153): trace `W(c,L) W(c,H) Dly(T_RESET_HOLD) W(c,L)`, clock Low
at completion, whatever the line was before. That the hold ends is the model's choice (log 28). -/
def Obligations.ResetRun : Prop :=
  ∀ (s : State) (a : AbstractPins) (cs : List (Option Word)) (rest : List (Option Answer)),
    Inv s → s.pos = .idle → s.ready = true → s.rstn = [] → s.pins = .abstr a → s.initialised = true →
    s.cpin ≠ s.dpin → s.cmds = some (encode .reset) :: cs →
    s.replies = List.replicate 3 (some (.ok false)) ++ rest →
    ∃ t, Sys2Proof.core.run 5 s = .next t ∧ t.pos = .idle ∧ t.outcome = (false, true, .ok, false, .clear) ∧
      t.clkLvl = .low ∧ t.edgeArmed = s.edgeArmed ∧ t.datapath = s.datapath ∧ t.counters = s.counters ∧
      t.config = s.config ∧ t.validity = s.validity ∧ t.cmds = cs ∧ t.replies = rest ∧
      t.log = .response ⟨.ok, false, s.result⟩ :: okEvent s (.writeLevel .low) false ::
        .delay s.params.tResetHold :: okEvent s (.writeLevel .high) false ::
        okEvent s (.writeLevel .low) false :: s.log

/-- 41_lifecycle.md R157: SHUTDOWN followed at once by RESET, all writes answered Ok, leaves the clock Low at completion;
in between, after SHUTDOWN, it is High. That RESET's hold ends is the model's choice (log 28). -/
def Obligations.ShutdownThenResetLeavesTheClockLow : Prop :=
  ∀ (s : State) (a : AbstractPins) (cs : List (Option Word)) (rest : List (Option Answer)),
    Inv s → s.pos = .idle → s.ready = true → s.rstn = [] → s.pins = .abstr a → s.initialised = true →
    s.cpin ≠ s.dpin → s.cmds = some (encode .shutdown) :: some (encode .reset) :: cs →
    s.replies = List.replicate 4 (some (.ok false)) ++ rest →
    (∃ t, Sys2Proof.core.run 2 s = .next t ∧ t.pos = .idle ∧ t.code = .ok ∧ t.done = true ∧ t.clkLvl = .high) ∧
    (∃ t, Sys2Proof.core.run 7 s = .next t ∧ t.pos = .idle ∧ t.code = .ok ∧ t.done = true ∧ t.clkLvl = .low)

/-- A whole READ that finds the data line Low at `W2` (42_read.md R183, R188 to R192, R195, R196; 30_encoding.md R104): for
any 24 levels and any `ENDPULSES` it completes with the sign-extended sample, and its trace is the fast path's, with no
polling and exactly 24 + `ENDPULSES` pulses. That the pulses' delays end is the model's choice (log 28). -/
def Obligations.ReadFastPathRun : Prop :=
  ∀ (s : State) (a : AbstractPins) (bits : List Bool) (cs : List (Option Word)) (rest : List (Option Answer)),
    Inv s → s.pos = .idle → s.ready = true → s.rstn = [] → s.pins = .abstr a → s.initialised = true →
    s.cpin ≠ s.dpin → s.cmds = some (encode .read) :: cs → bits.length = 24 →
    s.replies = List.replicate 4 (some (.ok false)) ++ frameReplies bits s.endpulses.toNat ++ rest →
    ∃ k t, k ≤ 137 ∧ Sys2Proof.core.run k s = .next t ∧ t.pos = .idle ∧
      t.outcome = (false, true, .ok, false, .clear) ∧ t.validity = (true, true) ∧
      t.result = signExtend s.params (shiftAll (bits.map levelOf)) ∧ t.config = s.config ∧ t.clkLvl = .low ∧
      t.edgeArmed = .clear ∧ t.cmds = cs ∧ t.replies = rest ∧
      t.log = .response ⟨.ok, false, t.result⟩ ::
        (([okEvent s .armFallingEdge false, okEvent s (.writeLevel .low) false, okEvent s .readLevel false,
            okEvent s .disarmEdge false] ++ frameTrace s bits s.endpulses.toNat).reverse ++ s.log)

/-- A whole READ that finds the edge after `j` fruitless attempts, fewer than `POLL_ATTEMPTS` (42_read.md R184, R185): `j` + 1
checks and `j` delays, then the frame. That these delays and the frame's end is the model's choice (log 28). -/
def Obligations.ReadAfterPollingRun : Prop :=
  ∀ (s : State) (a : AbstractPins) (bits : List Bool) (j : Nat) (cs : List (Option Word))
    (rest : List (Option Answer)),
    Inv s → s.pos = .idle → s.ready = true → s.rstn = [] → s.pins = .abstr a → s.initialised = true →
    s.cpin ≠ s.dpin → s.cmds = some (encode .read) :: cs → bits.length = 24 → j < s.params.pollAttempts →
    s.replies = [some (.ok false), some (.ok false), some (.ok true)] ++ List.replicate j (some (.ok false)) ++
      [some (.ok true), some (.ok false)] ++ frameReplies bits s.endpulses.toNat ++ rest →
    ∃ k t, k ≤ 138 + 2 * j ∧ Sys2Proof.core.run k s = .next t ∧ t.pos = .idle ∧
      t.outcome = (false, true, .ok, false, .clear) ∧ t.validity = (true, true) ∧
      t.result = signExtend s.params (shiftAll (bits.map levelOf)) ∧ t.config = s.config ∧ t.clkLvl = .low ∧
      t.edgeArmed = .clear ∧ t.replies = rest ∧
      t.log = .response ⟨.ok, false, t.result⟩ ::
        (([okEvent s .armFallingEdge false, okEvent s (.writeLevel .low) false, okEvent s .readLevel true] ++
            pollTrace s j ++ [okEvent s .edgeWasDetected true, okEvent s .disarmEdge false] ++
            frameTrace s bits s.endpulses.toNat).reverse ++ s.log)

/-- A READ whose data-ready never asserts (42_read.md R185, R186, R195): TimeoutError after exactly `POLL_ATTEMPTS` attempts,
each followed by its delay, with no rising clock write at all, `RESULT` untouched and no sample on offer. That each of
the delays ends is the model's choice (log 28). -/
def Obligations.ReadTimeoutRun : Prop :=
  ∀ (s : State) (a : AbstractPins) (cs : List (Option Word)) (rest : List (Option Answer)),
    Inv s → s.pos = .idle → s.ready = true → s.rstn = [] → s.pins = .abstr a → s.initialised = true →
    s.cpin ≠ s.dpin → s.cmds = some (encode .read) :: cs →
    s.replies = [some (.ok false), some (.ok false), some (.ok true)] ++
      List.replicate s.params.pollAttempts (some (.ok false)) ++ [some (.ok false)] ++ rest →
    ∃ t, Sys2Proof.core.run (5 + 2 * s.params.pollAttempts) s = .next t ∧ t.pos = .idle ∧
      t.outcome = (false, true, .timeoutError, false, .clear) ∧ t.validity = (false, true) ∧
      t.datapath = (0, s.result) ∧ t.config = s.config ∧ t.clkLvl = .low ∧ t.edgeArmed = .clear ∧ t.replies = rest ∧
      t.log = .response ⟨.timeoutError, false, s.result⟩ ::
        (([okEvent s .armFallingEdge false, okEvent s (.writeLevel .low) false, okEvent s .readLevel true] ++
            pollTrace s s.params.pollAttempts ++ [okEvent s .disarmEdge false]).reverse ++ s.log)

/-- 60_exceptions.md R237: every command terminates. From any state of a command in progress, if every primitive is
answered (in the `abstract` binding: enough answers are laid down) and every delay ends (log 28), the machine is idle again within
2 × `POLL_ATTEMPTS` + 136 micro-steps, with a response. -/
def Obligations.EveryCommandEnds : Prop :=
  ∀ s : State, Inv s → s.phase ≠ .idle → s.ready = true → s.rstn = [] →
    (∀ a, s.pins = .abstr a → (∀ r ∈ s.replies, r ≠ none) ∧ s.params.pollAttempts + 82 ≤ s.replies.length) →
    ∃ k t, k ≤ 2 * s.params.pollAttempts + 136 ∧ Sys2Proof.core.run k s = .next t ∧ t.pos = .idle ∧
      t.done = true ∧ t.rspValid = true

/-! ### Invariants -/

/-- The controller's invariant holds after hardware reset (10_state.md R36) and survives every micro-step. -/
def Obligations.InvariantKept : Prop :=
  ∀ s t : State, Inv s → step s = .next t → Inv t

/-- The controller's invariant, and the ones of the clock line, the edge arming and the trace, hold at reset. -/
def Obligations.InvariantsAtReset : Prop :=
  Inv State.reset ∧ ClockInv State.reset ∧ ArmInv State.reset ∧ TraceInv State.reset

/-- The clock is Low where a pulse may start and High between the two writes of a pulse, in both bindings
(42_read.md R182, R190; 70_reset_and_hazards.md R268). -/
def Obligations.ClockLevelKept : Prop :=
  ∀ s t : State, Inv s → ClockInv s → step s = .next t → ClockInv t

/-- Edge detection is armed from `W1` to the disarm and off while bits are shifted (10_state.md R42). -/
def Obligations.EdgeArmingKept : Prop :=
  ∀ s t : State, Inv s → ArmInv s → step s = .next t → ArmInv t

/-- The trace of a command agrees with its position: pulses, falling writes, attempts, delays and samples
(42_read.md R185, R189 to R191). -/
def Obligations.TraceAgreesWithPosition : Prop :=
  ∀ s t : State, Inv s → TraceInv s → step s = .next t → TraceInv t

/-- 42_read.md R195, for every READ that ends, in every environment: Ok after exactly 24 + `ENDPULSES` rising and as many
falling writes beyond the one of `W1`; TimeoutError after none rising and exactly `POLL_ATTEMPTS` fruitless attempts;
IoError after at most 24 + `ENDPULSES` rising ones. -/
def Obligations.ReadPulseCount : Prop :=
  ∀ s t : State, Inv s → TraceInv s → s.inReset = false → s.phase.isRead = true → step s = .next t → t.pos = .idle →
    ∃ r tr, t.log = .response r :: (tr ++ s.log) ∧ r.code = t.code ∧ tr.length ≤ 1 ∧
      (t.code = .ok →
        (commandTrace (tr ++ s.log)).countP Obs.isRise = 24 + s.endpulses.toNat ∧
        (commandTrace (tr ++ s.log)).countP Obs.isFall = 1 + (24 + s.endpulses.toNat)) ∧
      (t.code = .timeoutError →
        (commandTrace (tr ++ s.log)).countP Obs.isRise = 0 ∧
        (commandTrace (tr ++ s.log)).countP Obs.isFruitlessPoll = s.params.pollAttempts) ∧
      (t.code = .ok ∨ t.code = .timeoutError ∨
        t.code = .ioError ∧ (commandTrace (tr ++ s.log)).countP Obs.isRise ≤ 24 + s.endpulses.toNat)

/-- 42_read.md R197, all-or-nothing: at the response of a READ `RESULT_VALID` is 1 exactly when the code is Ok, and then
`RESULT` is the sign extension of exactly 24 levels sampled after the one of `W2`, first level most significant; in every
other case `RESULT` has not been written. -/
def Obligations.ReadIsAllOrNothing : Prop :=
  ∀ s t : State, Inv s → TraceInv s → s.inReset = false → s.phase.isRead = true → step s = .next t → t.pos = .idle →
    (t.resultValid = true ↔ t.code = .ok) ∧
    (t.code = .ok → ∃ l ls, levelsIn (commandTrace s.log).reverse = l :: ls ∧ ls.length = 24 ∧
      t.result = signExtend s.params (shiftAll ls)) ∧
    (t.code ≠ .ok → t.result = s.result)

/-- Nothing stops the controller (00_scope.md section 7 item 5): from a state of the invariant no step faults, and every
step has a next state while the pin layer is set up and the two handles are different pins, every delay ending (log 28). -/
def Obligations.NoStepStopsTheMachine : Prop :=
  ∀ s : State, Inv s → (∀ f, step s ≠ .fault f) ∧
    (s.ready = true → (s.initialised = true → s.cpin ≠ s.dpin) → ∃ t, step s = .next t)

/-! ### Whole-machine rules: who writes what (10_state.md R46) -/

/-- `RESULT` is written only by the successful completion of a READ and by hardware reset (10_state.md R22). -/
def Obligations.ResultWrittenOnlyByAGoodRead : Prop :=
  ∀ s t : State, step s = .next t → t.result ≠ s.result →
    (s.inReset = true ∧ t.result = .zero s.params.resultW) ∨
    (s.inReset = false ∧ s.phase = .endpulse ∧ t.result = signExtend s.params s.acc ∧ t.resultValid = true ∧ t.code = .ok ∧
      t.done = true ∧ t.pos = .idle)

/-- `ACC` is written only by the acceptance of a READ, by its sample step and by hardware reset (10_state.md R21). -/
def Obligations.AccWrittenOnlyByRead : Prop :=
  ∀ s t : State, step s = .next t → t.acc ≠ s.acc →
    (s.inReset = true ∧ t.acc = 0) ∨ (s.inReset = false ∧ s.pos = .idle ∧ t.pos = .w0 ∧ t.acc = 0) ∨
    (s.inReset = false ∧ s.pos = .b4 ∧ ∃ l, t.acc = shiftIn s.acc l)

/-- `CFG` is written only by INIT, by a good SETGAIN and by hardware reset (10_state.md R28, R29): the identifiers of the
accepted word at INIT's acceptance, `ENDPULSES` to 1 at INIT's completion and to the `n` of the accepted word by SETGAIN. -/
def Obligations.ConfigWrittenOnlyByInitAndSetgain : Prop :=
  ∀ s t : State, step s = .next t → t.config ≠ s.config →
    (s.inReset = true ∧ t.config = (1, 0, 0)) ∨
    (s.inReset = false ∧ s.pos = .idle ∧ t.pos = .i0 ∧ ∃ w c d rest, s.cmds = some w :: rest ∧
      decode w = .ok (.init c d) ∧ pinValid s.params c = true ∧ pinValid s.params d = true ∧
      t.config = (s.endpulses, c, d)) ∨
    (s.inReset = false ∧ s.pos = .i1 ∧ t.config = (1, s.cpin, s.dpin) ∧ t.initialised = true ∧ t.code = .ok) ∨
    (s.inReset = false ∧ s.pos = .idle ∧ s.initialised = true ∧ t.pos = .idle ∧ t.code = .ok ∧
      ∃ w n rest, s.cmds = some w :: rest ∧ decode w = .ok (.setgain n) ∧ n ≠ 0 ∧ t.config = (n, s.cpin, s.dpin))

/-- `INITIALISED` and `RESULT_VALID` change only as 10_state.md R30 says: `INITIALISED` is set by the completion of INIT and
cleared by its acceptance; `RESULT_VALID` is set by the completion of READ and cleared by the acceptance of READ and of
INIT; hardware reset clears both. -/
def Obligations.ValidityBitsChangeAsStated : Prop :=
  ∀ s t : State, Inv s → step s = .next t →
    (s.initialised = false → t.initialised = true → s.inReset = false ∧ s.pos = .i1 ∧ t.pos = .idle ∧ t.code = .ok) ∧
    (s.initialised = true → t.initialised = false →
      s.inReset = true ∨ s.pos = .idle ∧ ∃ w c d rest, s.cmds = some w :: rest ∧ decode w = .ok (.init c d)) ∧
    (s.resultValid = false → t.resultValid = true →
      s.inReset = false ∧ s.phase = .endpulse ∧ t.pos = .idle ∧ t.code = .ok) ∧
    (s.resultValid = true → t.resultValid = false →
      s.inReset = true ∨ s.pos = .idle ∧ ∃ w i rest, s.cmds = some w :: rest ∧ decode w = .ok i ∧
        (i = .read ∨ ∃ c d, i = .init c d))

/-- Who changes the environment state the controller acts on (10_state.md R40 to R42, R46), in both bindings: the directions
change only in INIT's two steps, the clock level only in a step that writes it or enables the `reference` output, the
arming only in a READ's arming and disarm; the parameters, the launch premise and the binding never change. -/
def Obligations.LinesChangeOnlyByTheirPrimitives : Prop :=
  ∀ s t : State, step s = .next t →
    t.params = s.params ∧ t.ready = s.ready ∧ ((∃ r, t.pins = .ref r) ↔ ∃ r, s.pins = .ref r) ∧
    (s.inReset = false →
      (t.dirClock ≠ s.dirClock → s.pos = .i1) ∧ (t.dirData ≠ s.dirData → s.pos = .i0) ∧
      (t.clkLvl ≠ s.clkLvl →
        (∃ l, s.pos.prim = some (.writeLevel l)) ∨ s.pos = .i1 ∧ ∃ r, s.pins = .ref r) ∧
      (t.edgeArmed ≠ s.edgeArmed → s.pos = .w0 ∨ s.pos = .w5))

/-- First failure wins (60_exceptions.md R228, 40_primitives.md R133): within a command `IOCAUSE` is written at most once,
from 0, and `CLEANUP_FAIL` is set only by the disarm step of a READ whose outcome is already a failure. -/
def Obligations.FirstFailureWins : Prop :=
  ∀ s t : State, Inv s → s.inReset = false → s.phase ≠ .idle → step s = .next t →
    (t.iocause ≠ s.iocause → s.iocause = .clear ∧
      ∃ p k rest, s.pos.prim = some p ∧ t.iocause = ⟨p.kind, p.pin, k⟩ ∧
        (t.log = .prim p (s.handle p.pin) (.fail k) :: rest ∨
          ∃ r, t.log = .response r :: .prim p (s.handle p.pin) (.fail k) :: rest)) ∧
    (t.cleanupFail ≠ s.cleanupFail → t.cleanupFail = true ∧ s.pos = .w5 ∧
      (s.pend = .timeout ∧ t.code = .timeoutError ∨ s.pend = .ioerr ∧ t.code = .ioError))

/-- One response per command (20_memory.md R68, R71; 60_exceptions.md R230): a response is raised in exactly the micro-step
in which a command completes, it carries the new `CODE`, `CLEANUP_FAIL` and `RESULT`, and no micro-step raises two. -/
def Obligations.OneResponsePerCommand : Prop :=
  ∀ s t : State, Inv s → step s = .next t →
    (t.rspValid = true → t.pos = .idle ∧ t.done = true ∧
      ∃ tr, tr.length ≤ 1 ∧ (∀ o ∈ tr, o.isEvent = true) ∧
        t.log = .response ⟨t.code, t.cleanupFail, t.result⟩ :: (tr ++ s.log)) ∧
    (t.rspValid = false → ∃ tr, tr.length ≤ 1 ∧ (∀ o ∈ tr, o.isEvent = true ∨ o = .hardReset) ∧ t.log = tr ++ s.log) ∧
    (s.inReset = false → s.phase ≠ .idle → (t.pos = .idle ↔ t.rspValid = true))

/-! ### Host registers and arithmetic -/

/-- The four host registers (10_state.md R28 to R32), whole: each field at its bits, every other bit zero, 0 above register
3, with the codes of 30_encoding.md R101 to R103 and 10_state.md R23, R31; and each fits the port (20_memory.md R69). -/
def Obligations.HostRegisterLayout : Prop :=
  (∀ s : State,
    s.hostRead 0 = .word ((s.phase.bits.setWidth 32 <<< 8) ||| (BitVec.ofBool s.cleanupFail).setWidth 32 <<< 7 |||
      (BitVec.ofBool s.initialised).setWidth 32 <<< 6 ||| (BitVec.ofBool s.resultValid).setWidth 32 <<< 5 |||
      s.code.bits.setWidth 32 <<< 2 ||| (BitVec.ofBool s.done).setWidth 32 <<< 1 |||
      (BitVec.ofBool s.busy).setWidth 32) ∧
    s.hostRead 1 = s.result ∧
    s.hostRead 2 = .word (s.dpin.setWidth 32 <<< 16 ||| s.cpin.setWidth 32 <<< 8 ||| s.endpulses.setWidth 32) ∧
    s.hostRead 3 = .word (s.iocause.cause.setWidth 32 <<< 8 ||| (pinBit s.iocause.pin).setWidth 32 <<< 3 |||
      s.iocause.prim.bits.setWidth 32) ∧
    (∀ n, 3 < n → s.hostRead n = .word 0) ∧
    (Inv s → (s.hostRead 1).width = s.params.resultW ∧ ∀ n, (s.hostRead n).width ≤ max 32 s.params.resultW)) ∧
  ([Code.ok, .configError, .ioError, .timeoutError, .illegalCommand, .notInitialised].map (·.bits.toNat) =
    [0, 1, 2, 3, 4, 5]) ∧
  ([Phase.idle, .init, .reset, .shutdown, .wait, .shift, .endpulse].map (·.bits.toNat) = [0, 1, 2, 3, 4, 5, 6]) ∧
  ([PrimKind.none, .configureInput, .configureOutput, .writeLevel, .readLevel, .armFallingEdge, .disarmEdge,
    .edgeWasDetected].map (·.bits.toNat) = [0, 1, 2, 3, 4, 5, 6, 7]) ∧
  pinBit .clock = 0 ∧ pinBit .data = 1

/-- 40_primitives.md R131, for every result width of at least 24: the integer, the law modulo 2^24, the range, and the
agreement with arithmetic sign extension. -/
def Obligations.SignExtensionIsExact : Prop :=
  (∀ (w : Nat) (v : Sample), 24 ≤ w →
    signExtendTo w v = v.signExtend w ∧
    (signExtendTo w v).toInt = (if v.getLsbD 23 then (v.toNat : Int) - 0x1000000 else v.toNat) ∧
    (signExtendTo w v).toInt % 0x1000000 = v.toNat ∧
    -8388608 ≤ (signExtendTo w v).toInt ∧ (signExtendTo w v).toInt ≤ 8388607) ∧
  (∀ (p : Params) (v : Sample), signExtend p v = ⟨p.resultW, signExtendTo p.resultW v⟩)

/-- 40_primitives.md R130 and 20_memory.md R63: one shift, and after 24 shifts from 0 the first level is the sign bit and
the last is bit 0, so that the value is the sum of `bit(l_k) × 2^(24-k)`. -/
def Obligations.ShiftInMostSignificantFirst : Prop :=
  (∀ (a : Sample) (l : Level), shiftIn a l = (a <<< 1 ||| (levelBit l).setWidth 24)) ∧
  (∀ ls : List Level, ls.length = 24 →
    (∀ (k : Nat) (h : k < ls.length), (shiftAll ls).getLsbD (23 - k) = decide (ls[k] = .high)) ∧
    (shiftAll ls).toNat = (ls.zipIdx.map fun p => (levelBit p.1).toNat * 2 ^ (23 - p.2)).sum)

/-! ### Bindings and independence -/

/-- The `reference` binding is a refinement of the `abstract` one (92_eei_decisions.md D21): every step it takes from a
state of the two invariants is a step the abstract machine takes for some answer of its pin layer, with the same
registers, responses and trace. -/
def Obligations.ReferenceRefinesAbstract : Prop :=
  ∀ (c a : State) (r : ReferencePins) (c' : State), Inv c → ClockInv c → c.pins = .ref r → Refines c a →
    step c = .next c' →
    ∃ (rp : List (Option Answer)) (a' : State), step { a with replies := rp } = .next a' ∧ Refines c' a'

/-- One clock cycle of the `reference` pin layer with `dout` = `d`, with and without a primitive (20_memory.md R66): the
synchroniser shifts, the sticky latch takes a falling edge seen while armed, a primitive's own writes win, and a falling
edge of `dout` is in the latch four edges after the last High level. -/
def Obligations.ReferencePinLayerCycle : Prop :=
  ∀ (s : State) (r : ReferencePins) (d : Bool) (ds : List Bool), s.pins = .ref r → s.dout = d :: ds →
    (∃ r', (cycle s).pins = .ref r' ∧ (cycle s).dout = ds ∧ r'.doutM = d ∧ r'.doutS = r.doutM ∧ r'.doutQ = r.doutS ∧
      r'.pdSck = r.pdSck ∧ r'.pdSckOe = r.pdSckOe ∧ r'.edgeArmed = r.edgeArmed ∧
      (r'.edgeLatch = true ↔ r.edgeLatch = true ∨ r.edgeArmed = true ∧ r.doutQ = true ∧ r.doutS = false)) ∧
    (∀ p : Prim, ∃ r', (primitive p s).2.pins = .ref r' ∧ (primitive p s).2.dout = ds ∧
      r'.doutM = d ∧ r'.doutS = r.doutM ∧ r'.doutQ = r.doutS ∧
      (p = .readLevel → s.answerTo p = some (.ok r.doutS)) ∧
      (p = .edgeWasDetected → s.answerTo p = some (.ok r.edgeLatch)) ∧
      (p ≠ .readLevel → p ≠ .edgeWasDetected → s.answerTo p = some (.ok false)) ∧
      (p = .armFallingEdge → r'.edgeArmed = true ∧ r'.edgeLatch = false) ∧
      (p = .disarmEdge → r'.edgeArmed = false ∧ r'.edgeLatch = false) ∧
      (p ≠ .armFallingEdge → p ≠ .disarmEdge → r'.edgeArmed = r.edgeArmed ∧
        (r'.edgeLatch = true ↔ r.edgeLatch = true ∨ r.edgeArmed = true ∧ r.doutQ = true ∧ r.doutS = false)) ∧
      r'.pdSckOe = (r.pdSckOe || decide (p = .configureOutput)) ∧
      r'.pdSck = (if p = .writeLevel .high then true else if p = .writeLevel .low then false else r.pdSck)) ∧
    (∀ x y rest, d = true → ds = false :: x :: y :: rest → r.edgeArmed = true →
      ∃ r', (cycles 4 s).pins = .ref r' ∧ r'.edgeLatch = true)

/-- How many clock edges a micro-step takes in the `reference` binding (70_reset_and_hazards.md R281, 40_primitives.md
R128): a delay `t` the least whole number that is at least `t × F_CLK`, a primitive exactly one, and an acceptance one; the
one edge of an idle micro-step is the model's reading (log 20), and every delay ends (log 28). `ds` are the levels of
`dout` at those edges. -/
def Obligations.ReferenceClockEdges : Prop :=
  ∀ (s : State) (r : ReferencePins) (ds rest : List Bool), s.pins = .ref r → s.dout = ds ++ rest →
    (∀ (i : Instr) (t : Nat), 0 < s.params.clkMicros * s.params.ticksPerMicro → s.running = some i →
      s.delayDue = some t →
      t * s.params.clkCycles ≤ ds.length * (s.params.clkMicros * s.params.ticksPerMicro) →
      (∀ m, t * s.params.clkCycles ≤ m * (s.params.clkMicros * s.params.ticksPerMicro) → ds.length ≤ m) →
      ∃ u, exec i s = .next u ∧ u.pins = .ref (ds.foldl ReferencePins.edge r) ∧ u.dout = rest) ∧
    (∀ (i : Instr) (p : Prim), s.ready = true → s.running = some i → s.pos.prim = some p →
      (s.pos = .w5 → s.pend ≠ .none) → ds.length = 1 →
      ∃ u, exec i s = .next u ∧ u.pins = .ref ((ds.foldl ReferencePins.edge r).writes p) ∧ u.dout = rest) ∧
    (∀ u, s.cmdReady = true → ds.length = 1 → step s = .next u →
      u.pins = .ref (ds.foldl ReferencePins.edge r) ∧ u.dout = rest)

/-- The timing of a pulse in the `reference` binding, in clock cycles (70_reset_and_hazards.md R281). First, its realised High
time (00_scope.md R6, R272): from the rising write to the falling one, `n` micro-steps of a driven line, it is at least
`T_HIGH` and less than `T_PD`. Second, the sampling margin of a data bit (R277; 20_memory.md R66; 42_read.md R189): the level
shifted in is the one of the edge `j`, two edges before the sample's own, where edge 0 is the rising write's, and with
the margin kept (`Inv`) `j` cycles are at least `3 / F_CLK + t_out`. Both rest on every delay ending (log 28). -/
def Obligations.ReferencePulseTiming : Prop :=
  (∀ (s : State) (r : ReferencePins), Inv s → s.ready = true → s.rstn = [] → s.pins = .ref r → s.drives →
    (s.pos = .b0 ∨ s.pos = .e0) → s.params.highCycles + 1 ≤ s.dout.length →
    ∃ (n : Nat) (u t : State), 1 ≤ n ∧ Sys2Proof.core.run 1 s = .next u ∧ Sys2Proof.core.run (n + 1) s = .next t ∧
      (∀ k, 1 ≤ k → k ≤ n → ∃ v, Sys2Proof.core.run k s = .next v ∧ v.clkLvl = .high) ∧ t.clkLvl = .low ∧
      s.params.tHigh * s.params.clkCycles ≤
        (u.dout.length - t.dout.length) * (s.params.clkMicros * s.params.ticksPerMicro) ∧
      (u.dout.length - t.dout.length) * (s.params.clkMicros * s.params.ticksPerMicro) <
        s.params.tPd * s.params.clkCycles) ∧
  (∀ (s : State) (r : ReferencePins), Inv s → s.ready = true → s.rstn = [] → s.pins = .ref r → s.pos = .b0 →
    s.params.cyclesOf s.params.tHigh + s.params.cyclesOf s.params.tLow + 3 ≤ s.dout.length →
    ∃ (k j : Nat) (d : Bool) (t : State), k ≤ 5 ∧ Sys2Proof.core.run k s = .next t ∧ s.dout[j]? = some d ∧
      t.dout = s.dout.drop (j + 3) ∧ t.acc = shiftIn s.acc (if d then .high else .low) ∧ t.bitcnt = s.bitcnt + 1 ∧
      3 * (s.params.clkMicros * s.params.ticksPerMicro) + s.params.tOut * s.params.clkCycles ≤
        j * (s.params.clkMicros * s.params.ticksPerMicro))

/-- In the `reference` binding no primitive fails, so IoError never occurs (20_memory.md R66, 60_exceptions.md R222). -/
def Obligations.ReferenceNeverFails : Prop :=
  ∀ s t : State, NoFailure s → step s = .next t → NoFailure t

/-- 10_state.md R35: a READ does not depend on what an earlier command left in `ACC`, the counters, `PEND`, `CODE`,
`CLEANUP_FAIL`, `IOCAUSE`, `RESULT_VALID`, `DONE` or `BUSY`: two machines that differ there alone run alike from its
acceptance on. -/
def Obligations.ReadForgetsEarlierCommands : Prop :=
  ∀ (n : Nat) (s u : State) (cs : List (Option Word)), s.pos = .idle → s.inReset = false → s.initialised = true →
    s.cmds = some (encode .read) :: cs →
    u = { s with acc := u.acc, bitcnt := u.bitcnt, pulsecnt := u.pulsecnt, pollcnt := u.pollcnt, pend := u.pend,
                 busy := u.busy, done := u.done, code := u.code, resultValid := u.resultValid,
                 cleanupFail := u.cleanupFail, iocause := u.iocause, rspValid := u.rspValid } →
    Sys2Proof.core.run (n + 1) u = Sys2Proof.core.run (n + 1) s
end

