-- ==== Sys2Proof/Laws/State.lean ====
section
/-! SUPPORT. What each record update writes and leaves, one lemma per field, and the values of a reset state. -/

namespace Sys2Proof.Machine

/-! ### Parameters -/

/-- The cycles of a delay last less than one cycle more than the delay (70_reset_and_hazards.md R281). -/
theorem cyclesOf_mul_lt (p : Params) (t : Nat) (h : 0 < p.clkMicros * p.ticksPerMicro) :
    p.cyclesOf t * (p.clkMicros * p.ticksPerMicro) < t * p.clkCycles + p.clkMicros * p.ticksPerMicro := by
  have := Nat.div_mul_le_self (t * p.clkCycles + (p.clkMicros * p.ticksPerMicro - 1)) (p.clkMicros * p.ticksPerMicro)
  unfold Params.cyclesOf
  omega

/-- The cycles of a delay last at least the delay (40_primitives.md R128). -/
theorem le_cyclesOf_mul (p : Params) (t : Nat) (h : 0 < p.clkMicros * p.ticksPerMicro) :
    t * p.clkCycles ≤ p.cyclesOf t * (p.clkMicros * p.ticksPerMicro) := by
  have := Nat.lt_div_mul_add (a := t * p.clkCycles + (p.clkMicros * p.ticksPerMicro - 1)) h
  unfold Params.cyclesOf
  omega

@[simp] theorem cyclesOf_zero (p : Params) (h : 0 < p.clkMicros * p.ticksPerMicro) : p.cyclesOf 0 = 0 := by
  rw [Params.cyclesOf, Nat.zero_mul, Nat.zero_add]
  exact Nat.div_eq_of_lt (Nat.sub_lt h Nat.one_pos)

/-- The default bound on the High time covers a pulse's clock cycles at every rate of 1 MHz and more. -/
theorem default_slack_covers : Params.default.slackCoversClock = true := by
  have h := cyclesOf_mul_lt Params.default Params.default.tHigh (by simp [Params.default])
  have hc : Params.default.clkMicros * Params.default.ticksPerMicro ≤ Params.default.clkCycles := by
    simp only [Params.default]; omega
  have ht : Params.default.tHigh = 1 := rfl
  have hs : Params.default.highSlack = 2 + Config.highSlack.val := rfl
  rw [ht] at h
  simp only [Params.slackCoversClock, Params.highCycles, decide_eq_true_eq, ht, hs, Nat.add_mul]
  omega

/-- The default parameters meet the constraints, whatever the OPEN ones are (00_scope.md R6). -/
theorem default_params_wf : Params.default.wf = true := by
  have h := Config.highSlack.isLt
  simp only [Params.wf, Params.timesWf, default_slack_covers, Params.widthsWf, Params.resolves, Bool.and_eq_true,
    Bool.or_eq_true, Bool.and_true, decide_eq_true_eq]
  simp only [Params.default, Params.tPd, Config.tPd, Config.dataBits]
  omega

/-! ### The sampling margin -/

@[simp] theorem keepsMargin_abstr (a : AbstractPins) (p : Params) : (PinLayer.abstr a).keepsMargin p = true := rfl
@[simp] theorem keepsMargin_ref (r : ReferencePins) (p : Params) :
    (PinLayer.ref r).keepsMargin p = p.samplingMargin := rfl
@[simp] theorem keepsMargin_afterReset (pins : PinLayer) (n : Nat) (p : Params) :
    (pins.afterReset n).keepsMargin p = pins.keepsMargin p := by cases pins <;> rfl

/-! ### `goto` -/

@[simp] theorem goto_params (p : Pos) (s : State) : (goto p s).params = s.params := rfl
@[simp] theorem goto_ready (p : Pos) (s : State) : (goto p s).ready = s.ready := rfl
@[simp] theorem goto_acc (p : Pos) (s : State) : (goto p s).acc = s.acc := rfl
@[simp] theorem goto_result (p : Pos) (s : State) : (goto p s).result = s.result := rfl
@[simp] theorem goto_pos (p : Pos) (s : State) : (goto p s).pos = p := rfl
@[simp] theorem goto_bitcnt (p : Pos) (s : State) : (goto p s).bitcnt = s.bitcnt := rfl
@[simp] theorem goto_pulsecnt (p : Pos) (s : State) : (goto p s).pulsecnt = s.pulsecnt := rfl
@[simp] theorem goto_pollcnt (p : Pos) (s : State) : (goto p s).pollcnt = s.pollcnt := rfl
@[simp] theorem goto_pend (p : Pos) (s : State) : (goto p s).pend = s.pend := rfl
@[simp] theorem goto_endpulses (p : Pos) (s : State) : (goto p s).endpulses = s.endpulses := rfl
@[simp] theorem goto_cpin (p : Pos) (s : State) : (goto p s).cpin = s.cpin := rfl
@[simp] theorem goto_dpin (p : Pos) (s : State) : (goto p s).dpin = s.dpin := rfl
@[simp] theorem goto_busy (p : Pos) (s : State) : (goto p s).busy = s.busy := rfl
@[simp] theorem goto_done (p : Pos) (s : State) : (goto p s).done = s.done := rfl
@[simp] theorem goto_code (p : Pos) (s : State) : (goto p s).code = s.code := rfl
@[simp] theorem goto_resultValid (p : Pos) (s : State) : (goto p s).resultValid = s.resultValid := rfl
@[simp] theorem goto_initialised (p : Pos) (s : State) : (goto p s).initialised = s.initialised := rfl
@[simp] theorem goto_cleanupFail (p : Pos) (s : State) : (goto p s).cleanupFail = s.cleanupFail := rfl
@[simp] theorem goto_iocause (p : Pos) (s : State) : (goto p s).iocause = s.iocause := rfl
@[simp] theorem goto_rspValid (p : Pos) (s : State) : (goto p s).rspValid = s.rspValid := rfl
@[simp] theorem goto_dirClock (p : Pos) (s : State) : (goto p s).dirClock = s.dirClock := rfl
@[simp] theorem goto_dirData (p : Pos) (s : State) : (goto p s).dirData = s.dirData := rfl
@[simp] theorem goto_pins (p : Pos) (s : State) : (goto p s).pins = s.pins := rfl
@[simp] theorem goto_cmds (p : Pos) (s : State) : (goto p s).cmds = s.cmds := rfl
@[simp] theorem goto_rstn (p : Pos) (s : State) : (goto p s).rstn = s.rstn := rfl
@[simp] theorem goto_replies (p : Pos) (s : State) : (goto p s).replies = s.replies := rfl
@[simp] theorem goto_dout (p : Pos) (s : State) : (goto p s).dout = s.dout := rfl
@[simp] theorem goto_draws (p : Pos) (s : State) : (goto p s).draws = s.draws := rfl
@[simp] theorem goto_log (p : Pos) (s : State) : (goto p s).log = s.log := rfl

/-! ### `begin` -/

@[simp] theorem begin_params (p : Pos) (s : State) : (begin p s).params = s.params := rfl
@[simp] theorem begin_ready (p : Pos) (s : State) : (begin p s).ready = s.ready := rfl
@[simp] theorem begin_acc (p : Pos) (s : State) : (begin p s).acc = s.acc := rfl
@[simp] theorem begin_result (p : Pos) (s : State) : (begin p s).result = s.result := rfl
@[simp] theorem begin_pos (p : Pos) (s : State) : (begin p s).pos = p := rfl
@[simp] theorem begin_bitcnt (p : Pos) (s : State) : (begin p s).bitcnt = s.bitcnt := rfl
@[simp] theorem begin_pulsecnt (p : Pos) (s : State) : (begin p s).pulsecnt = s.pulsecnt := rfl
@[simp] theorem begin_pollcnt (p : Pos) (s : State) : (begin p s).pollcnt = s.pollcnt := rfl
@[simp] theorem begin_pend (p : Pos) (s : State) : (begin p s).pend = s.pend := rfl
@[simp] theorem begin_endpulses (p : Pos) (s : State) : (begin p s).endpulses = s.endpulses := rfl
@[simp] theorem begin_cpin (p : Pos) (s : State) : (begin p s).cpin = s.cpin := rfl
@[simp] theorem begin_dpin (p : Pos) (s : State) : (begin p s).dpin = s.dpin := rfl
@[simp] theorem begin_busy (p : Pos) (s : State) : (begin p s).busy = true := rfl
@[simp] theorem begin_done (p : Pos) (s : State) : (begin p s).done = s.done := rfl
@[simp] theorem begin_code (p : Pos) (s : State) : (begin p s).code = s.code := rfl
@[simp] theorem begin_resultValid (p : Pos) (s : State) : (begin p s).resultValid = s.resultValid := rfl
@[simp] theorem begin_initialised (p : Pos) (s : State) : (begin p s).initialised = s.initialised := rfl
@[simp] theorem begin_cleanupFail (p : Pos) (s : State) : (begin p s).cleanupFail = s.cleanupFail := rfl
@[simp] theorem begin_iocause (p : Pos) (s : State) : (begin p s).iocause = s.iocause := rfl
@[simp] theorem begin_rspValid (p : Pos) (s : State) : (begin p s).rspValid = s.rspValid := rfl
@[simp] theorem begin_dirClock (p : Pos) (s : State) : (begin p s).dirClock = s.dirClock := rfl
@[simp] theorem begin_dirData (p : Pos) (s : State) : (begin p s).dirData = s.dirData := rfl
@[simp] theorem begin_pins (p : Pos) (s : State) : (begin p s).pins = s.pins := rfl
@[simp] theorem begin_cmds (p : Pos) (s : State) : (begin p s).cmds = s.cmds := rfl
@[simp] theorem begin_rstn (p : Pos) (s : State) : (begin p s).rstn = s.rstn := rfl
@[simp] theorem begin_replies (p : Pos) (s : State) : (begin p s).replies = s.replies := rfl
@[simp] theorem begin_dout (p : Pos) (s : State) : (begin p s).dout = s.dout := rfl
@[simp] theorem begin_draws (p : Pos) (s : State) : (begin p s).draws = s.draws := rfl
@[simp] theorem begin_log (p : Pos) (s : State) : (begin p s).log = s.log := rfl

/-! ### `leaveWait` -/

@[simp] theorem leaveWait_params (p : Pend) (s : State) : (leaveWait p s).params = s.params := rfl
@[simp] theorem leaveWait_ready (p : Pend) (s : State) : (leaveWait p s).ready = s.ready := rfl
@[simp] theorem leaveWait_acc (p : Pend) (s : State) : (leaveWait p s).acc = s.acc := rfl
@[simp] theorem leaveWait_result (p : Pend) (s : State) : (leaveWait p s).result = s.result := rfl
@[simp] theorem leaveWait_pos (p : Pend) (s : State) : (leaveWait p s).pos = .w5 := rfl
@[simp] theorem leaveWait_bitcnt (p : Pend) (s : State) : (leaveWait p s).bitcnt = s.bitcnt := rfl
@[simp] theorem leaveWait_pulsecnt (p : Pend) (s : State) : (leaveWait p s).pulsecnt = s.pulsecnt := rfl
@[simp] theorem leaveWait_pollcnt (p : Pend) (s : State) : (leaveWait p s).pollcnt = s.pollcnt := rfl
@[simp] theorem leaveWait_pend (p : Pend) (s : State) : (leaveWait p s).pend = p := rfl
@[simp] theorem leaveWait_endpulses (p : Pend) (s : State) : (leaveWait p s).endpulses = s.endpulses := rfl
@[simp] theorem leaveWait_cpin (p : Pend) (s : State) : (leaveWait p s).cpin = s.cpin := rfl
@[simp] theorem leaveWait_dpin (p : Pend) (s : State) : (leaveWait p s).dpin = s.dpin := rfl
@[simp] theorem leaveWait_busy (p : Pend) (s : State) : (leaveWait p s).busy = s.busy := rfl
@[simp] theorem leaveWait_done (p : Pend) (s : State) : (leaveWait p s).done = s.done := rfl
@[simp] theorem leaveWait_code (p : Pend) (s : State) : (leaveWait p s).code = s.code := rfl
@[simp] theorem leaveWait_resultValid (p : Pend) (s : State) : (leaveWait p s).resultValid = s.resultValid := rfl
@[simp] theorem leaveWait_initialised (p : Pend) (s : State) : (leaveWait p s).initialised = s.initialised := rfl
@[simp] theorem leaveWait_cleanupFail (p : Pend) (s : State) : (leaveWait p s).cleanupFail = s.cleanupFail := rfl
@[simp] theorem leaveWait_iocause (p : Pend) (s : State) : (leaveWait p s).iocause = s.iocause := rfl
@[simp] theorem leaveWait_rspValid (p : Pend) (s : State) : (leaveWait p s).rspValid = s.rspValid := rfl
@[simp] theorem leaveWait_dirClock (p : Pend) (s : State) : (leaveWait p s).dirClock = s.dirClock := rfl
@[simp] theorem leaveWait_dirData (p : Pend) (s : State) : (leaveWait p s).dirData = s.dirData := rfl
@[simp] theorem leaveWait_pins (p : Pend) (s : State) : (leaveWait p s).pins = s.pins := rfl
@[simp] theorem leaveWait_cmds (p : Pend) (s : State) : (leaveWait p s).cmds = s.cmds := rfl
@[simp] theorem leaveWait_rstn (p : Pend) (s : State) : (leaveWait p s).rstn = s.rstn := rfl
@[simp] theorem leaveWait_replies (p : Pend) (s : State) : (leaveWait p s).replies = s.replies := rfl
@[simp] theorem leaveWait_dout (p : Pend) (s : State) : (leaveWait p s).dout = s.dout := rfl
@[simp] theorem leaveWait_draws (p : Pend) (s : State) : (leaveWait p s).draws = s.draws := rfl
@[simp] theorem leaveWait_log (p : Pend) (s : State) : (leaveWait p s).log = s.log := rfl

/-! ### `complete` -/

@[simp] theorem complete_params (c : Code) (s : State) : (complete c s).params = s.params := rfl
@[simp] theorem complete_ready (c : Code) (s : State) : (complete c s).ready = s.ready := rfl
@[simp] theorem complete_acc (c : Code) (s : State) : (complete c s).acc = s.acc := rfl
@[simp] theorem complete_result (c : Code) (s : State) : (complete c s).result = s.result := rfl
@[simp] theorem complete_pos (c : Code) (s : State) : (complete c s).pos = .idle := rfl
@[simp] theorem complete_bitcnt (c : Code) (s : State) : (complete c s).bitcnt = s.bitcnt := rfl
@[simp] theorem complete_pulsecnt (c : Code) (s : State) : (complete c s).pulsecnt = s.pulsecnt := rfl
@[simp] theorem complete_pollcnt (c : Code) (s : State) : (complete c s).pollcnt = s.pollcnt := rfl
@[simp] theorem complete_pend (c : Code) (s : State) : (complete c s).pend = s.pend := rfl
@[simp] theorem complete_endpulses (c : Code) (s : State) : (complete c s).endpulses = s.endpulses := rfl
@[simp] theorem complete_cpin (c : Code) (s : State) : (complete c s).cpin = s.cpin := rfl
@[simp] theorem complete_dpin (c : Code) (s : State) : (complete c s).dpin = s.dpin := rfl
@[simp] theorem complete_busy (c : Code) (s : State) : (complete c s).busy = false := rfl
@[simp] theorem complete_done (c : Code) (s : State) : (complete c s).done = true := rfl
@[simp] theorem complete_code (c : Code) (s : State) : (complete c s).code = c := rfl
@[simp] theorem complete_resultValid (c : Code) (s : State) : (complete c s).resultValid = s.resultValid := rfl
@[simp] theorem complete_initialised (c : Code) (s : State) : (complete c s).initialised = s.initialised := rfl
@[simp] theorem complete_cleanupFail (c : Code) (s : State) : (complete c s).cleanupFail = s.cleanupFail := rfl
@[simp] theorem complete_iocause (c : Code) (s : State) : (complete c s).iocause = s.iocause := rfl
@[simp] theorem complete_rspValid (c : Code) (s : State) : (complete c s).rspValid = true := rfl
@[simp] theorem complete_dirClock (c : Code) (s : State) : (complete c s).dirClock = s.dirClock := rfl
@[simp] theorem complete_dirData (c : Code) (s : State) : (complete c s).dirData = s.dirData := rfl
@[simp] theorem complete_pins (c : Code) (s : State) : (complete c s).pins = s.pins := rfl
@[simp] theorem complete_cmds (c : Code) (s : State) : (complete c s).cmds = s.cmds := rfl
@[simp] theorem complete_rstn (c : Code) (s : State) : (complete c s).rstn = s.rstn := rfl
@[simp] theorem complete_replies (c : Code) (s : State) : (complete c s).replies = s.replies := rfl
@[simp] theorem complete_dout (c : Code) (s : State) : (complete c s).dout = s.dout := rfl
@[simp] theorem complete_draws (c : Code) (s : State) : (complete c s).draws = s.draws := rfl
@[simp] theorem complete_log (c : Code) (s : State) : (complete c s).log = .response ⟨c, s.cleanupFail, s.result⟩ :: s.log := rfl

/-! ### `tick` -/

@[simp] theorem tick_params (s : State) : (tick s).params = s.params := rfl
@[simp] theorem tick_ready (s : State) : (tick s).ready = s.ready := rfl
@[simp] theorem tick_acc (s : State) : (tick s).acc = s.acc := rfl
@[simp] theorem tick_result (s : State) : (tick s).result = s.result := rfl
@[simp] theorem tick_pos (s : State) : (tick s).pos = s.pos := rfl
@[simp] theorem tick_bitcnt (s : State) : (tick s).bitcnt = s.bitcnt := rfl
@[simp] theorem tick_pulsecnt (s : State) : (tick s).pulsecnt = s.pulsecnt := rfl
@[simp] theorem tick_pollcnt (s : State) : (tick s).pollcnt = s.pollcnt := rfl
@[simp] theorem tick_pend (s : State) : (tick s).pend = s.pend := rfl
@[simp] theorem tick_endpulses (s : State) : (tick s).endpulses = s.endpulses := rfl
@[simp] theorem tick_cpin (s : State) : (tick s).cpin = s.cpin := rfl
@[simp] theorem tick_dpin (s : State) : (tick s).dpin = s.dpin := rfl
@[simp] theorem tick_busy (s : State) : (tick s).busy = s.busy := rfl
@[simp] theorem tick_done (s : State) : (tick s).done = s.done := rfl
@[simp] theorem tick_code (s : State) : (tick s).code = s.code := rfl
@[simp] theorem tick_resultValid (s : State) : (tick s).resultValid = s.resultValid := rfl
@[simp] theorem tick_initialised (s : State) : (tick s).initialised = s.initialised := rfl
@[simp] theorem tick_cleanupFail (s : State) : (tick s).cleanupFail = s.cleanupFail := rfl
@[simp] theorem tick_iocause (s : State) : (tick s).iocause = s.iocause := rfl
@[simp] theorem tick_rspValid (s : State) : (tick s).rspValid = false := rfl
@[simp] theorem tick_dirClock (s : State) : (tick s).dirClock = s.dirClock := rfl
@[simp] theorem tick_dirData (s : State) : (tick s).dirData = s.dirData := rfl
@[simp] theorem tick_pins (s : State) : (tick s).pins = s.pins := rfl
@[simp] theorem tick_cmds (s : State) : (tick s).cmds = s.cmds := rfl
@[simp] theorem tick_rstn (s : State) : (tick s).rstn = s.rstn.tail := rfl
@[simp] theorem tick_replies (s : State) : (tick s).replies = s.replies := rfl
@[simp] theorem tick_dout (s : State) : (tick s).dout = s.dout := rfl
@[simp] theorem tick_draws (s : State) : (tick s).draws = s.draws := rfl
@[simp] theorem tick_log (s : State) : (tick s).log = s.log := rfl

/-! ### `readClear` -/

@[simp] theorem readClear_params (s : State) : (readClear s).params = s.params := rfl
@[simp] theorem readClear_ready (s : State) : (readClear s).ready = s.ready := rfl
@[simp] theorem readClear_acc (s : State) : (readClear s).acc = 0 := rfl
@[simp] theorem readClear_result (s : State) : (readClear s).result = s.result := rfl
@[simp] theorem readClear_pos (s : State) : (readClear s).pos = s.pos := rfl
@[simp] theorem readClear_bitcnt (s : State) : (readClear s).bitcnt = 0 := rfl
@[simp] theorem readClear_pulsecnt (s : State) : (readClear s).pulsecnt = 0 := rfl
@[simp] theorem readClear_pollcnt (s : State) : (readClear s).pollcnt = 0 := rfl
@[simp] theorem readClear_pend (s : State) : (readClear s).pend = .none := rfl
@[simp] theorem readClear_endpulses (s : State) : (readClear s).endpulses = s.endpulses := rfl
@[simp] theorem readClear_cpin (s : State) : (readClear s).cpin = s.cpin := rfl
@[simp] theorem readClear_dpin (s : State) : (readClear s).dpin = s.dpin := rfl
@[simp] theorem readClear_busy (s : State) : (readClear s).busy = s.busy := rfl
@[simp] theorem readClear_done (s : State) : (readClear s).done = s.done := rfl
@[simp] theorem readClear_code (s : State) : (readClear s).code = s.code := rfl
@[simp] theorem readClear_resultValid (s : State) : (readClear s).resultValid = false := rfl
@[simp] theorem readClear_initialised (s : State) : (readClear s).initialised = s.initialised := rfl
@[simp] theorem readClear_cleanupFail (s : State) : (readClear s).cleanupFail = s.cleanupFail := rfl
@[simp] theorem readClear_iocause (s : State) : (readClear s).iocause = s.iocause := rfl
@[simp] theorem readClear_rspValid (s : State) : (readClear s).rspValid = s.rspValid := rfl
@[simp] theorem readClear_dirClock (s : State) : (readClear s).dirClock = s.dirClock := rfl
@[simp] theorem readClear_dirData (s : State) : (readClear s).dirData = s.dirData := rfl
@[simp] theorem readClear_pins (s : State) : (readClear s).pins = s.pins := rfl
@[simp] theorem readClear_cmds (s : State) : (readClear s).cmds = s.cmds := rfl
@[simp] theorem readClear_rstn (s : State) : (readClear s).rstn = s.rstn := rfl
@[simp] theorem readClear_replies (s : State) : (readClear s).replies = s.replies := rfl
@[simp] theorem readClear_dout (s : State) : (readClear s).dout = s.dout := rfl
@[simp] theorem readClear_draws (s : State) : (readClear s).draws = s.draws := rfl
@[simp] theorem readClear_log (s : State) : (readClear s).log = s.log := rfl

/-! ### `answered` -/

@[simp] theorem answered_params (p : Prim) (a : Answer) (pl : PinLayer) (s : State) : (answered p a pl s).params = s.params := rfl
@[simp] theorem answered_ready (p : Prim) (a : Answer) (pl : PinLayer) (s : State) : (answered p a pl s).ready = s.ready := rfl
@[simp] theorem answered_acc (p : Prim) (a : Answer) (pl : PinLayer) (s : State) : (answered p a pl s).acc = s.acc := rfl
@[simp] theorem answered_result (p : Prim) (a : Answer) (pl : PinLayer) (s : State) : (answered p a pl s).result = s.result := rfl
@[simp] theorem answered_pos (p : Prim) (a : Answer) (pl : PinLayer) (s : State) : (answered p a pl s).pos = s.pos := rfl
@[simp] theorem answered_bitcnt (p : Prim) (a : Answer) (pl : PinLayer) (s : State) : (answered p a pl s).bitcnt = s.bitcnt := rfl
@[simp] theorem answered_pulsecnt (p : Prim) (a : Answer) (pl : PinLayer) (s : State) : (answered p a pl s).pulsecnt = s.pulsecnt := rfl
@[simp] theorem answered_pollcnt (p : Prim) (a : Answer) (pl : PinLayer) (s : State) : (answered p a pl s).pollcnt = s.pollcnt := rfl
@[simp] theorem answered_pend (p : Prim) (a : Answer) (pl : PinLayer) (s : State) : (answered p a pl s).pend = s.pend := rfl
@[simp] theorem answered_endpulses (p : Prim) (a : Answer) (pl : PinLayer) (s : State) : (answered p a pl s).endpulses = s.endpulses := rfl
@[simp] theorem answered_cpin (p : Prim) (a : Answer) (pl : PinLayer) (s : State) : (answered p a pl s).cpin = s.cpin := rfl
@[simp] theorem answered_dpin (p : Prim) (a : Answer) (pl : PinLayer) (s : State) : (answered p a pl s).dpin = s.dpin := rfl
@[simp] theorem answered_busy (p : Prim) (a : Answer) (pl : PinLayer) (s : State) : (answered p a pl s).busy = s.busy := rfl
@[simp] theorem answered_done (p : Prim) (a : Answer) (pl : PinLayer) (s : State) : (answered p a pl s).done = s.done := rfl
@[simp] theorem answered_code (p : Prim) (a : Answer) (pl : PinLayer) (s : State) : (answered p a pl s).code = s.code := rfl
@[simp] theorem answered_resultValid (p : Prim) (a : Answer) (pl : PinLayer) (s : State) : (answered p a pl s).resultValid = s.resultValid := rfl
@[simp] theorem answered_initialised (p : Prim) (a : Answer) (pl : PinLayer) (s : State) : (answered p a pl s).initialised = s.initialised := rfl
@[simp] theorem answered_cleanupFail (p : Prim) (a : Answer) (pl : PinLayer) (s : State) : (answered p a pl s).cleanupFail = s.cleanupFail := rfl
@[simp] theorem answered_iocause (p : Prim) (a : Answer) (pl : PinLayer) (s : State) : (answered p a pl s).iocause = s.iocause := rfl
@[simp] theorem answered_rspValid (p : Prim) (a : Answer) (pl : PinLayer) (s : State) : (answered p a pl s).rspValid = s.rspValid := rfl
@[simp] theorem answered_dirClock (p : Prim) (a : Answer) (pl : PinLayer) (s : State) : (answered p a pl s).dirClock = dirClockAfter s.dirClock p a := rfl
@[simp] theorem answered_dirData (p : Prim) (a : Answer) (pl : PinLayer) (s : State) : (answered p a pl s).dirData = dirDataAfter s.dirData p a := rfl
@[simp] theorem answered_pins (p : Prim) (a : Answer) (pl : PinLayer) (s : State) : (answered p a pl s).pins = pl := rfl
@[simp] theorem answered_cmds (p : Prim) (a : Answer) (pl : PinLayer) (s : State) : (answered p a pl s).cmds = s.cmds := rfl
@[simp] theorem answered_rstn (p : Prim) (a : Answer) (pl : PinLayer) (s : State) : (answered p a pl s).rstn = s.rstn := rfl
@[simp] theorem answered_replies (p : Prim) (a : Answer) (pl : PinLayer) (s : State) : (answered p a pl s).replies = s.replies := rfl
@[simp] theorem answered_dout (p : Prim) (a : Answer) (pl : PinLayer) (s : State) : (answered p a pl s).dout = s.dout := rfl
@[simp] theorem answered_draws (p : Prim) (a : Answer) (pl : PinLayer) (s : State) : (answered p a pl s).draws = s.draws := rfl
@[simp] theorem answered_log (p : Prim) (a : Answer) (pl : PinLayer) (s : State) : (answered p a pl s).log = .prim p (s.handle p.pin) a :: s.log := rfl

/-! ### `hardReset` -/

@[simp] theorem hardReset_params (s : State) : (hardReset s).params = s.params := rfl
@[simp] theorem hardReset_ready (s : State) : (hardReset s).ready = s.ready := rfl
@[simp] theorem hardReset_acc (s : State) : (hardReset s).acc = 0 := rfl
@[simp] theorem hardReset_result (s : State) : (hardReset s).result = .zero s.params.resultW := rfl
@[simp] theorem hardReset_pos (s : State) : (hardReset s).pos = .idle := rfl
@[simp] theorem hardReset_bitcnt (s : State) : (hardReset s).bitcnt = 0 := rfl
@[simp] theorem hardReset_pulsecnt (s : State) : (hardReset s).pulsecnt = 0 := rfl
@[simp] theorem hardReset_pollcnt (s : State) : (hardReset s).pollcnt = 0 := rfl
@[simp] theorem hardReset_pend (s : State) : (hardReset s).pend = .none := rfl
@[simp] theorem hardReset_endpulses (s : State) : (hardReset s).endpulses = 1 := rfl
@[simp] theorem hardReset_cpin (s : State) : (hardReset s).cpin = 0 := rfl
@[simp] theorem hardReset_dpin (s : State) : (hardReset s).dpin = 0 := rfl
@[simp] theorem hardReset_busy (s : State) : (hardReset s).busy = false := rfl
@[simp] theorem hardReset_done (s : State) : (hardReset s).done = false := rfl
@[simp] theorem hardReset_code (s : State) : (hardReset s).code = .ok := rfl
@[simp] theorem hardReset_resultValid (s : State) : (hardReset s).resultValid = false := rfl
@[simp] theorem hardReset_initialised (s : State) : (hardReset s).initialised = false := rfl
@[simp] theorem hardReset_cleanupFail (s : State) : (hardReset s).cleanupFail = false := rfl
@[simp] theorem hardReset_iocause (s : State) : (hardReset s).iocause = .clear := rfl
@[simp] theorem hardReset_rspValid (s : State) : (hardReset s).rspValid = false := rfl
@[simp] theorem hardReset_dirClock (s : State) : (hardReset s).dirClock = .unconfigured := rfl
@[simp] theorem hardReset_dirData (s : State) : (hardReset s).dirData = .unconfigured := rfl
@[simp] theorem hardReset_pins (s : State) : (hardReset s).pins = s.pins.afterReset s.draws := rfl
@[simp] theorem hardReset_cmds (s : State) : (hardReset s).cmds = s.cmds := rfl
@[simp] theorem hardReset_rstn (s : State) : (hardReset s).rstn = s.rstn := rfl
@[simp] theorem hardReset_replies (s : State) : (hardReset s).replies = s.replies := rfl
@[simp] theorem hardReset_dout (s : State) : (hardReset s).dout = s.dout := rfl
@[simp] theorem hardReset_draws (s : State) : (hardReset s).draws = s.draws + 3 := rfl
@[simp] theorem hardReset_log (s : State) : (hardReset s).log = .hardReset :: s.log := rfl

/-! ### The pin layer's views -/

@[simp] theorem IoCause.clear_cause : IoCause.clear.cause = 0 := rfl

@[simp] theorem Reg.zero_width (n : Nat) : (Reg.zero n).width = n := rfl

@[simp] theorem signExtend_width (p : Params) (v : Sample) : (signExtend p v).width = p.resultW := rfl

@[simp] theorem clkLvl_eq (s : State) : s.clkLvl = s.pins.clkLvl := rfl

@[simp] theorem edgeArmed_eq (s : State) : s.edgeArmed = s.pins.edgeArmed := rfl

@[simp] theorem edgeLatch_eq (s : State) : s.edgeLatch = s.pins.edgeLatch := rfl

@[simp] theorem tick_handle (s : State) (p : Pin) : (tick s).handle p = s.handle p := rfl

end Sys2Proof.Machine
end

