-- ==== Sys2Proof/Laws/Ops.lean ====
section
/-! SUPPORT. One lemma per shared operation that says everything it can do, and its frame field by field. -/

namespace Sys2Proof.Machine

/-! ### The draws -/

@[simp] theorem drawAnswer_cons {s : State} {r : Option Answer} {rest : List (Option Answer)}
    (h : s.replies = r :: rest) : drawAnswer s = (r, { s with replies := rest }) := by
  simp [drawAnswer, h]

theorem drawAnswer_frame (s : State) :
    ∃ r n, (drawAnswer s).2 = { s with replies := r, draws := n } := by
  unfold drawAnswer
  split
  · exact ⟨_, _, rfl⟩
  · exact ⟨_, _, rfl⟩

theorem drawDout_frame (s : State) : ∃ d n, (drawDout s).2 = { s with dout := d, draws := n } := by
  unfold drawDout
  split
  · exact ⟨_, _, rfl⟩
  · exact ⟨_, _, rfl⟩

/-! ### Clock cycles and delays -/

theorem cycle_frame (s : State) : ∃ pl d n, cycle s = { s with pins := pl, dout := d, draws := n } := by
  unfold cycle
  split
  · exact ⟨s.pins, s.dout, s.draws, rfl⟩
  · obtain ⟨d, n, h⟩ := drawDout_frame s
    exact ⟨_, d, n, by rw [h]⟩

/-- In the `abstract` binding a clock cycle is not seen. -/
theorem cycle_abstr {s : State} {a : AbstractPins} (h : s.pins = .abstr a) : cycle s = s := by
  simp [cycle, h]

theorem cycles_frame (n : Nat) (s : State) :
    ∃ pl d k, cycles n s = { s with pins := pl, dout := d, draws := k } := by
  induction n generalizing s with
  | zero => exact ⟨s.pins, s.dout, s.draws, rfl⟩
  | succ n ih =>
    obtain ⟨pl, d, k, h⟩ := cycle_frame s
    obtain ⟨pl', d', k', h'⟩ := ih (cycle s)
    exact ⟨pl', d', k', by rw [cycles, h', h]⟩

theorem cycles_abstr {s : State} {a : AbstractPins} (h : s.pins = .abstr a) (n : Nat) : cycles n s = s := by
  induction n with
  | zero => rfl
  | succ n ih => rw [cycles, cycle_abstr h, ih]

theorem delay_frame (t : Nat) (s : State) :
    ∃ pl d k l, delay t s = { s with pins := pl, dout := d, draws := k, log := l } := by
  unfold delay
  split
  · exact ⟨s.pins, s.dout, s.draws, s.log, rfl⟩
  · obtain ⟨pl, d, k, h⟩ := cycles_frame (delayCycles s.params t) s
    exact ⟨pl, d, k, _, by rw [h]⟩

@[simp] theorem delay_zero (s : State) : delay 0 s = s := rfl

theorem delay_abstr {s : State} {a : AbstractPins} (h : s.pins = .abstr a) {t : Nat} (ht : t ≠ 0) :
    delay t s = { s with log := .delay t :: s.log } := by
  simp [delay, ht, cycles_abstr h]


@[simp] theorem cycle_params (s : State) : (cycle s).params = s.params := by
  obtain ⟨_, _, _, h⟩ := cycle_frame s; rw [h]
@[simp] theorem cycle_ready (s : State) : (cycle s).ready = s.ready := by
  obtain ⟨_, _, _, h⟩ := cycle_frame s; rw [h]
@[simp] theorem cycle_acc (s : State) : (cycle s).acc = s.acc := by
  obtain ⟨_, _, _, h⟩ := cycle_frame s; rw [h]
@[simp] theorem cycle_result (s : State) : (cycle s).result = s.result := by
  obtain ⟨_, _, _, h⟩ := cycle_frame s; rw [h]
@[simp] theorem cycle_pos (s : State) : (cycle s).pos = s.pos := by
  obtain ⟨_, _, _, h⟩ := cycle_frame s; rw [h]
@[simp] theorem cycle_bitcnt (s : State) : (cycle s).bitcnt = s.bitcnt := by
  obtain ⟨_, _, _, h⟩ := cycle_frame s; rw [h]
@[simp] theorem cycle_pulsecnt (s : State) : (cycle s).pulsecnt = s.pulsecnt := by
  obtain ⟨_, _, _, h⟩ := cycle_frame s; rw [h]
@[simp] theorem cycle_pollcnt (s : State) : (cycle s).pollcnt = s.pollcnt := by
  obtain ⟨_, _, _, h⟩ := cycle_frame s; rw [h]
@[simp] theorem cycle_pend (s : State) : (cycle s).pend = s.pend := by
  obtain ⟨_, _, _, h⟩ := cycle_frame s; rw [h]
@[simp] theorem cycle_endpulses (s : State) : (cycle s).endpulses = s.endpulses := by
  obtain ⟨_, _, _, h⟩ := cycle_frame s; rw [h]
@[simp] theorem cycle_cpin (s : State) : (cycle s).cpin = s.cpin := by
  obtain ⟨_, _, _, h⟩ := cycle_frame s; rw [h]
@[simp] theorem cycle_dpin (s : State) : (cycle s).dpin = s.dpin := by
  obtain ⟨_, _, _, h⟩ := cycle_frame s; rw [h]
@[simp] theorem cycle_busy (s : State) : (cycle s).busy = s.busy := by
  obtain ⟨_, _, _, h⟩ := cycle_frame s; rw [h]
@[simp] theorem cycle_done (s : State) : (cycle s).done = s.done := by
  obtain ⟨_, _, _, h⟩ := cycle_frame s; rw [h]
@[simp] theorem cycle_code (s : State) : (cycle s).code = s.code := by
  obtain ⟨_, _, _, h⟩ := cycle_frame s; rw [h]
@[simp] theorem cycle_resultValid (s : State) : (cycle s).resultValid = s.resultValid := by
  obtain ⟨_, _, _, h⟩ := cycle_frame s; rw [h]
@[simp] theorem cycle_initialised (s : State) : (cycle s).initialised = s.initialised := by
  obtain ⟨_, _, _, h⟩ := cycle_frame s; rw [h]
@[simp] theorem cycle_cleanupFail (s : State) : (cycle s).cleanupFail = s.cleanupFail := by
  obtain ⟨_, _, _, h⟩ := cycle_frame s; rw [h]
@[simp] theorem cycle_iocause (s : State) : (cycle s).iocause = s.iocause := by
  obtain ⟨_, _, _, h⟩ := cycle_frame s; rw [h]
@[simp] theorem cycle_rspValid (s : State) : (cycle s).rspValid = s.rspValid := by
  obtain ⟨_, _, _, h⟩ := cycle_frame s; rw [h]
@[simp] theorem cycle_dirClock (s : State) : (cycle s).dirClock = s.dirClock := by
  obtain ⟨_, _, _, h⟩ := cycle_frame s; rw [h]
@[simp] theorem cycle_dirData (s : State) : (cycle s).dirData = s.dirData := by
  obtain ⟨_, _, _, h⟩ := cycle_frame s; rw [h]
@[simp] theorem cycle_cmds (s : State) : (cycle s).cmds = s.cmds := by
  obtain ⟨_, _, _, h⟩ := cycle_frame s; rw [h]
@[simp] theorem cycle_rstn (s : State) : (cycle s).rstn = s.rstn := by
  obtain ⟨_, _, _, h⟩ := cycle_frame s; rw [h]
@[simp] theorem cycle_replies (s : State) : (cycle s).replies = s.replies := by
  obtain ⟨_, _, _, h⟩ := cycle_frame s; rw [h]
@[simp] theorem cycle_log (s : State) : (cycle s).log = s.log := by
  obtain ⟨_, _, _, h⟩ := cycle_frame s; rw [h]
@[simp] theorem cycles_params (n : Nat) (s : State) : (cycles n s).params = s.params := by
  obtain ⟨_, _, _, h⟩ := cycles_frame n s; rw [h]
@[simp] theorem cycles_ready (n : Nat) (s : State) : (cycles n s).ready = s.ready := by
  obtain ⟨_, _, _, h⟩ := cycles_frame n s; rw [h]
@[simp] theorem cycles_acc (n : Nat) (s : State) : (cycles n s).acc = s.acc := by
  obtain ⟨_, _, _, h⟩ := cycles_frame n s; rw [h]
@[simp] theorem cycles_result (n : Nat) (s : State) : (cycles n s).result = s.result := by
  obtain ⟨_, _, _, h⟩ := cycles_frame n s; rw [h]
@[simp] theorem cycles_pos (n : Nat) (s : State) : (cycles n s).pos = s.pos := by
  obtain ⟨_, _, _, h⟩ := cycles_frame n s; rw [h]
@[simp] theorem cycles_bitcnt (n : Nat) (s : State) : (cycles n s).bitcnt = s.bitcnt := by
  obtain ⟨_, _, _, h⟩ := cycles_frame n s; rw [h]
@[simp] theorem cycles_pulsecnt (n : Nat) (s : State) : (cycles n s).pulsecnt = s.pulsecnt := by
  obtain ⟨_, _, _, h⟩ := cycles_frame n s; rw [h]
@[simp] theorem cycles_pollcnt (n : Nat) (s : State) : (cycles n s).pollcnt = s.pollcnt := by
  obtain ⟨_, _, _, h⟩ := cycles_frame n s; rw [h]
@[simp] theorem cycles_pend (n : Nat) (s : State) : (cycles n s).pend = s.pend := by
  obtain ⟨_, _, _, h⟩ := cycles_frame n s; rw [h]
@[simp] theorem cycles_endpulses (n : Nat) (s : State) : (cycles n s).endpulses = s.endpulses := by
  obtain ⟨_, _, _, h⟩ := cycles_frame n s; rw [h]
@[simp] theorem cycles_cpin (n : Nat) (s : State) : (cycles n s).cpin = s.cpin := by
  obtain ⟨_, _, _, h⟩ := cycles_frame n s; rw [h]
@[simp] theorem cycles_dpin (n : Nat) (s : State) : (cycles n s).dpin = s.dpin := by
  obtain ⟨_, _, _, h⟩ := cycles_frame n s; rw [h]
@[simp] theorem cycles_busy (n : Nat) (s : State) : (cycles n s).busy = s.busy := by
  obtain ⟨_, _, _, h⟩ := cycles_frame n s; rw [h]
@[simp] theorem cycles_done (n : Nat) (s : State) : (cycles n s).done = s.done := by
  obtain ⟨_, _, _, h⟩ := cycles_frame n s; rw [h]
@[simp] theorem cycles_code (n : Nat) (s : State) : (cycles n s).code = s.code := by
  obtain ⟨_, _, _, h⟩ := cycles_frame n s; rw [h]
@[simp] theorem cycles_resultValid (n : Nat) (s : State) : (cycles n s).resultValid = s.resultValid := by
  obtain ⟨_, _, _, h⟩ := cycles_frame n s; rw [h]
@[simp] theorem cycles_initialised (n : Nat) (s : State) : (cycles n s).initialised = s.initialised := by
  obtain ⟨_, _, _, h⟩ := cycles_frame n s; rw [h]
@[simp] theorem cycles_cleanupFail (n : Nat) (s : State) : (cycles n s).cleanupFail = s.cleanupFail := by
  obtain ⟨_, _, _, h⟩ := cycles_frame n s; rw [h]
@[simp] theorem cycles_iocause (n : Nat) (s : State) : (cycles n s).iocause = s.iocause := by
  obtain ⟨_, _, _, h⟩ := cycles_frame n s; rw [h]
@[simp] theorem cycles_rspValid (n : Nat) (s : State) : (cycles n s).rspValid = s.rspValid := by
  obtain ⟨_, _, _, h⟩ := cycles_frame n s; rw [h]
@[simp] theorem cycles_dirClock (n : Nat) (s : State) : (cycles n s).dirClock = s.dirClock := by
  obtain ⟨_, _, _, h⟩ := cycles_frame n s; rw [h]
@[simp] theorem cycles_dirData (n : Nat) (s : State) : (cycles n s).dirData = s.dirData := by
  obtain ⟨_, _, _, h⟩ := cycles_frame n s; rw [h]
@[simp] theorem cycles_cmds (n : Nat) (s : State) : (cycles n s).cmds = s.cmds := by
  obtain ⟨_, _, _, h⟩ := cycles_frame n s; rw [h]
@[simp] theorem cycles_rstn (n : Nat) (s : State) : (cycles n s).rstn = s.rstn := by
  obtain ⟨_, _, _, h⟩ := cycles_frame n s; rw [h]
@[simp] theorem cycles_replies (n : Nat) (s : State) : (cycles n s).replies = s.replies := by
  obtain ⟨_, _, _, h⟩ := cycles_frame n s; rw [h]
@[simp] theorem cycles_log (n : Nat) (s : State) : (cycles n s).log = s.log := by
  obtain ⟨_, _, _, h⟩ := cycles_frame n s; rw [h]
@[simp] theorem delay_params (t : Nat) (s : State) : (delay t s).params = s.params := by
  obtain ⟨_, _, _, _, h⟩ := delay_frame t s; rw [h]
@[simp] theorem delay_ready (t : Nat) (s : State) : (delay t s).ready = s.ready := by
  obtain ⟨_, _, _, _, h⟩ := delay_frame t s; rw [h]
@[simp] theorem delay_acc (t : Nat) (s : State) : (delay t s).acc = s.acc := by
  obtain ⟨_, _, _, _, h⟩ := delay_frame t s; rw [h]
@[simp] theorem delay_result (t : Nat) (s : State) : (delay t s).result = s.result := by
  obtain ⟨_, _, _, _, h⟩ := delay_frame t s; rw [h]
@[simp] theorem delay_pos (t : Nat) (s : State) : (delay t s).pos = s.pos := by
  obtain ⟨_, _, _, _, h⟩ := delay_frame t s; rw [h]
@[simp] theorem delay_bitcnt (t : Nat) (s : State) : (delay t s).bitcnt = s.bitcnt := by
  obtain ⟨_, _, _, _, h⟩ := delay_frame t s; rw [h]
@[simp] theorem delay_pulsecnt (t : Nat) (s : State) : (delay t s).pulsecnt = s.pulsecnt := by
  obtain ⟨_, _, _, _, h⟩ := delay_frame t s; rw [h]
@[simp] theorem delay_pollcnt (t : Nat) (s : State) : (delay t s).pollcnt = s.pollcnt := by
  obtain ⟨_, _, _, _, h⟩ := delay_frame t s; rw [h]
@[simp] theorem delay_pend (t : Nat) (s : State) : (delay t s).pend = s.pend := by
  obtain ⟨_, _, _, _, h⟩ := delay_frame t s; rw [h]
@[simp] theorem delay_endpulses (t : Nat) (s : State) : (delay t s).endpulses = s.endpulses := by
  obtain ⟨_, _, _, _, h⟩ := delay_frame t s; rw [h]
@[simp] theorem delay_cpin (t : Nat) (s : State) : (delay t s).cpin = s.cpin := by
  obtain ⟨_, _, _, _, h⟩ := delay_frame t s; rw [h]
@[simp] theorem delay_dpin (t : Nat) (s : State) : (delay t s).dpin = s.dpin := by
  obtain ⟨_, _, _, _, h⟩ := delay_frame t s; rw [h]
@[simp] theorem delay_busy (t : Nat) (s : State) : (delay t s).busy = s.busy := by
  obtain ⟨_, _, _, _, h⟩ := delay_frame t s; rw [h]
@[simp] theorem delay_done (t : Nat) (s : State) : (delay t s).done = s.done := by
  obtain ⟨_, _, _, _, h⟩ := delay_frame t s; rw [h]
@[simp] theorem delay_code (t : Nat) (s : State) : (delay t s).code = s.code := by
  obtain ⟨_, _, _, _, h⟩ := delay_frame t s; rw [h]
@[simp] theorem delay_resultValid (t : Nat) (s : State) : (delay t s).resultValid = s.resultValid := by
  obtain ⟨_, _, _, _, h⟩ := delay_frame t s; rw [h]
@[simp] theorem delay_initialised (t : Nat) (s : State) : (delay t s).initialised = s.initialised := by
  obtain ⟨_, _, _, _, h⟩ := delay_frame t s; rw [h]
@[simp] theorem delay_cleanupFail (t : Nat) (s : State) : (delay t s).cleanupFail = s.cleanupFail := by
  obtain ⟨_, _, _, _, h⟩ := delay_frame t s; rw [h]
@[simp] theorem delay_iocause (t : Nat) (s : State) : (delay t s).iocause = s.iocause := by
  obtain ⟨_, _, _, _, h⟩ := delay_frame t s; rw [h]
@[simp] theorem delay_rspValid (t : Nat) (s : State) : (delay t s).rspValid = s.rspValid := by
  obtain ⟨_, _, _, _, h⟩ := delay_frame t s; rw [h]
@[simp] theorem delay_dirClock (t : Nat) (s : State) : (delay t s).dirClock = s.dirClock := by
  obtain ⟨_, _, _, _, h⟩ := delay_frame t s; rw [h]
@[simp] theorem delay_dirData (t : Nat) (s : State) : (delay t s).dirData = s.dirData := by
  obtain ⟨_, _, _, _, h⟩ := delay_frame t s; rw [h]
@[simp] theorem delay_cmds (t : Nat) (s : State) : (delay t s).cmds = s.cmds := by
  obtain ⟨_, _, _, _, h⟩ := delay_frame t s; rw [h]
@[simp] theorem delay_rstn (t : Nat) (s : State) : (delay t s).rstn = s.rstn := by
  obtain ⟨_, _, _, _, h⟩ := delay_frame t s; rw [h]
@[simp] theorem delay_replies (t : Nat) (s : State) : (delay t s).replies = s.replies := by
  obtain ⟨_, _, _, _, h⟩ := delay_frame t s; rw [h]

/-- The event of a delay: none for `Delay(0)` (40_primitives.md R128). -/
theorem delay_log (t : Nat) (s : State) :
    (delay t s).log = if t = 0 then s.log else .delay t :: s.log := by
  unfold delay
  split <;> simp

/-! ### What a clock edge leaves of the pin layer -/

theorem pins_edge_clkLvl {s s' : State} {r : ReferencePins} {d : Bool} (h : s.pins = .ref r)
    (h' : s'.pins = .ref (r.edge d)) : s'.clkLvl = s.clkLvl ∧ s'.edgeArmed = s.edgeArmed := by
  simp [State.clkLvl, State.edgeArmed, PinLayer.clkLvl, PinLayer.edgeArmed, h, h', ReferencePins.edge]

@[simp] theorem cycle_clkLvl (s : State) : (cycle s).clkLvl = s.clkLvl := by
  unfold cycle
  split
  · rfl
  · next r h => exact (pins_edge_clkLvl h rfl).1

@[simp] theorem cycle_edgeArmed (s : State) : (cycle s).edgeArmed = s.edgeArmed := by
  unfold cycle
  split
  · rfl
  · next r h => exact (pins_edge_clkLvl h rfl).2

@[simp] theorem cycles_clkLvl (n : Nat) (s : State) : (cycles n s).clkLvl = s.clkLvl := by
  induction n generalizing s with
  | zero => rfl
  | succ n ih => rw [cycles, ih, cycle_clkLvl]

@[simp] theorem cycles_edgeArmed (n : Nat) (s : State) : (cycles n s).edgeArmed = s.edgeArmed := by
  induction n generalizing s with
  | zero => rfl
  | succ n ih => rw [cycles, ih, cycle_edgeArmed]

@[simp] theorem delay_clkLvl (t : Nat) (s : State) : (delay t s).clkLvl = s.clkLvl := by
  unfold delay
  split
  · rfl
  · exact cycles_clkLvl _ s

@[simp] theorem delay_edgeArmed (t : Nat) (s : State) : (delay t s).edgeArmed = s.edgeArmed := by
  unfold delay
  split
  · rfl
  · exact cycles_edgeArmed _ s

/-- A clock cycle keeps the binding and, in the `reference` binding, the driven line. -/
theorem cycle_pins (s : State) :
    cycle s = s ∨ ∃ r d, s.pins = .ref r ∧ (cycle s).pins = .ref (r.edge d) := by
  unfold cycle
  split
  · exact .inl rfl
  · next r h => exact .inr ⟨r, _, h, rfl⟩

/-- The output enable of the `reference` binding; `true` in the `abstract` one, which has none. -/
def lineDriven (pl : PinLayer) : Bool :=
  match pl with
  | .abstr _ => true
  | .ref r => r.pdSckOe

theorem drives_iff (s : State) : s.drives ↔ lineDriven s.pins = true := by
  unfold State.drives lineDriven
  cases s.pins <;> simp

@[simp] theorem cycle_lineDriven (s : State) : lineDriven (cycle s).pins = lineDriven s.pins := by
  obtain h | ⟨r, d, h, h'⟩ := cycle_pins s
  · rw [h]
  · rw [h, h']; rfl

@[simp] theorem cycles_lineDriven (n : Nat) (s : State) : lineDriven (cycles n s).pins = lineDriven s.pins := by
  induction n generalizing s with
  | zero => rfl
  | succ n ih => rw [cycles, ih, cycle_lineDriven]

@[simp] theorem delay_lineDriven (t : Nat) (s : State) : lineDriven (delay t s).pins = lineDriven s.pins := by
  unfold delay
  split
  · rfl
  · exact cycles_lineDriven _ s

@[simp] theorem cycle_keepsMargin (s : State) (q : Params) :
    (cycle s).pins.keepsMargin q = s.pins.keepsMargin q := by
  obtain h | ⟨r, d, h, h'⟩ := cycle_pins s
  · rw [h]
  · rw [h, h']; rfl

@[simp] theorem cycles_keepsMargin (n : Nat) (s : State) (q : Params) :
    (cycles n s).pins.keepsMargin q = s.pins.keepsMargin q := by
  induction n generalizing s with
  | zero => rfl
  | succ n ih => rw [cycles, ih, cycle_keepsMargin]

@[simp] theorem delay_keepsMargin (t : Nat) (s : State) (q : Params) :
    (delay t s).pins.keepsMargin q = s.pins.keepsMargin q := by
  unfold delay
  split
  · rfl
  · exact cycles_keepsMargin _ s q

/-! ### A primitive -/

/-- In the `abstract` binding the answer is the next draw (20_memory.md R65). -/
theorem primitive_abstr {s : State} {a : AbstractPins} (h : s.pins = .abstr a) (p : Prim) :
    primitive p s = match drawAnswer s with
      | (none, s1) => (none, s1)
      | (some raw, s1) =>
        (some (p.settle s.params raw),
          answered p (p.settle s.params raw) (.abstr (a.after p (p.settle s.params raw))) s1) := by
  simp only [primitive, h] <;> rfl

/-- In the `reference` binding the answer is the registers' and the pin layer sees one edge (20_memory.md R66). -/
theorem primitive_ref {s : State} {r : ReferencePins} (h : s.pins = .ref r) (p : Prim) :
    primitive p s = (some (r.answer p), answered p (r.answer p) (.ref (r.after p (drawDout s).1)) (drawDout s).2) := by
  simp [primitive, h]

/-- A laid-down answer of the `abstract` pin layer is the answer. -/
theorem primitive_reply {s : State} {a : AbstractPins} {raw : Answer} {rest : List (Option Answer)}
    (h : s.pins = .abstr a) (hr : s.replies = some raw :: rest) (p : Prim) :
    primitive p s = (some (p.settle s.params raw),
      answered p (p.settle s.params raw) (.abstr (a.after p (p.settle s.params raw))) { s with replies := rest }) := by
  rw [primitive_abstr h, drawAnswer_cons hr]

theorem primitive_frame (p : Prim) (s : State) :
    ∃ pl dc dd rp d n l, (primitive p s).2 =
      { s with pins := pl, dirClock := dc, dirData := dd, replies := rp, dout := d, draws := n, log := l } := by
  unfold primitive
  split
  · obtain ⟨r, n, h⟩ := drawAnswer_frame s
    split
    · next s1 e =>
      rw [e] at h
      exact ⟨s.pins, s.dirClock, s.dirData, r, s.dout, n, s.log, h⟩
    · next raw s1 e =>
      rw [e] at h
      exact ⟨_, _, _, r, s.dout, n, _, by simp only at h; rw [h]; rfl⟩
  · obtain ⟨d, n, h⟩ := drawDout_frame s
    exact ⟨_, _, _, s.replies, d, n, _, by rw [h]; rfl⟩

@[simp] theorem primitive_params (p : Prim) (s : State) : ((primitive p s).2).params = s.params := by
  obtain ⟨_, _, _, _, _, _, _, h⟩ := primitive_frame p s; rw [h]
@[simp] theorem primitive_ready (p : Prim) (s : State) : ((primitive p s).2).ready = s.ready := by
  obtain ⟨_, _, _, _, _, _, _, h⟩ := primitive_frame p s; rw [h]
@[simp] theorem primitive_acc (p : Prim) (s : State) : ((primitive p s).2).acc = s.acc := by
  obtain ⟨_, _, _, _, _, _, _, h⟩ := primitive_frame p s; rw [h]
@[simp] theorem primitive_result (p : Prim) (s : State) : ((primitive p s).2).result = s.result := by
  obtain ⟨_, _, _, _, _, _, _, h⟩ := primitive_frame p s; rw [h]
@[simp] theorem primitive_pos (p : Prim) (s : State) : ((primitive p s).2).pos = s.pos := by
  obtain ⟨_, _, _, _, _, _, _, h⟩ := primitive_frame p s; rw [h]
@[simp] theorem primitive_bitcnt (p : Prim) (s : State) : ((primitive p s).2).bitcnt = s.bitcnt := by
  obtain ⟨_, _, _, _, _, _, _, h⟩ := primitive_frame p s; rw [h]
@[simp] theorem primitive_pulsecnt (p : Prim) (s : State) : ((primitive p s).2).pulsecnt = s.pulsecnt := by
  obtain ⟨_, _, _, _, _, _, _, h⟩ := primitive_frame p s; rw [h]
@[simp] theorem primitive_pollcnt (p : Prim) (s : State) : ((primitive p s).2).pollcnt = s.pollcnt := by
  obtain ⟨_, _, _, _, _, _, _, h⟩ := primitive_frame p s; rw [h]
@[simp] theorem primitive_pend (p : Prim) (s : State) : ((primitive p s).2).pend = s.pend := by
  obtain ⟨_, _, _, _, _, _, _, h⟩ := primitive_frame p s; rw [h]
@[simp] theorem primitive_endpulses (p : Prim) (s : State) : ((primitive p s).2).endpulses = s.endpulses := by
  obtain ⟨_, _, _, _, _, _, _, h⟩ := primitive_frame p s; rw [h]
@[simp] theorem primitive_cpin (p : Prim) (s : State) : ((primitive p s).2).cpin = s.cpin := by
  obtain ⟨_, _, _, _, _, _, _, h⟩ := primitive_frame p s; rw [h]
@[simp] theorem primitive_dpin (p : Prim) (s : State) : ((primitive p s).2).dpin = s.dpin := by
  obtain ⟨_, _, _, _, _, _, _, h⟩ := primitive_frame p s; rw [h]
@[simp] theorem primitive_busy (p : Prim) (s : State) : ((primitive p s).2).busy = s.busy := by
  obtain ⟨_, _, _, _, _, _, _, h⟩ := primitive_frame p s; rw [h]
@[simp] theorem primitive_done (p : Prim) (s : State) : ((primitive p s).2).done = s.done := by
  obtain ⟨_, _, _, _, _, _, _, h⟩ := primitive_frame p s; rw [h]
@[simp] theorem primitive_code (p : Prim) (s : State) : ((primitive p s).2).code = s.code := by
  obtain ⟨_, _, _, _, _, _, _, h⟩ := primitive_frame p s; rw [h]
@[simp] theorem primitive_resultValid (p : Prim) (s : State) : ((primitive p s).2).resultValid = s.resultValid := by
  obtain ⟨_, _, _, _, _, _, _, h⟩ := primitive_frame p s; rw [h]
@[simp] theorem primitive_initialised (p : Prim) (s : State) : ((primitive p s).2).initialised = s.initialised := by
  obtain ⟨_, _, _, _, _, _, _, h⟩ := primitive_frame p s; rw [h]
@[simp] theorem primitive_cleanupFail (p : Prim) (s : State) : ((primitive p s).2).cleanupFail = s.cleanupFail := by
  obtain ⟨_, _, _, _, _, _, _, h⟩ := primitive_frame p s; rw [h]
@[simp] theorem primitive_iocause (p : Prim) (s : State) : ((primitive p s).2).iocause = s.iocause := by
  obtain ⟨_, _, _, _, _, _, _, h⟩ := primitive_frame p s; rw [h]
@[simp] theorem primitive_rspValid (p : Prim) (s : State) : ((primitive p s).2).rspValid = s.rspValid := by
  obtain ⟨_, _, _, _, _, _, _, h⟩ := primitive_frame p s; rw [h]
@[simp] theorem primitive_cmds (p : Prim) (s : State) : ((primitive p s).2).cmds = s.cmds := by
  obtain ⟨_, _, _, _, _, _, _, h⟩ := primitive_frame p s; rw [h]
@[simp] theorem primitive_rstn (p : Prim) (s : State) : ((primitive p s).2).rstn = s.rstn := by
  obtain ⟨_, _, _, _, _, _, _, h⟩ := primitive_frame p s; rw [h]

/-- The trace grows by the primitive when it is answered (00_scope.md R10). -/
theorem primitive_log {p : Prim} {s : State} {a : Answer} (h : s.answerTo p = some a) :
    (primitive p s).2.log = .prim p (s.handle p.pin) a :: s.log := by
  unfold State.answerTo at h
  cases hp : s.pins with
  | abstr ab =>
    rw [primitive_abstr hp] at h ⊢
    obtain ⟨r, n, hf⟩ := drawAnswer_frame s
    revert h hf
    obtain ⟨o, s1⟩ := drawAnswer s
    rintro h rfl
    cases o with
    | none => simp at h
    | some raw => simp at h; simp [h, State.handle]
  | ref r =>
    rw [primitive_ref hp] at h ⊢
    obtain ⟨d, n, hf⟩ := drawDout_frame s
    simp at h
    simp [h, hf, State.handle]

/-- While no answer has arrived nothing happens but the draw (93 U11). -/
theorem primitive_unanswered {p : Prim} {s : State} (h : s.answerTo p = none) :
    ∃ r n, (primitive p s).2 = { s with replies := r, draws := n } := by
  unfold State.answerTo at h
  cases hp : s.pins with
  | abstr ab =>
    rw [primitive_abstr hp] at h ⊢
    obtain ⟨r, n, hf⟩ := drawAnswer_frame s
    revert h hf
    obtain ⟨o, s1⟩ := drawAnswer s
    rintro h rfl
    cases o with
    | none => exact ⟨r, n, by simp [hp]⟩
    | some raw => simp at h
  | ref r => simp [primitive_ref hp] at h

/-- The levels and flags of the pin layer after an answered primitive, in either binding. -/
theorem primitive_pins {p : Prim} {s : State} {a : Answer} (h : s.answerTo p = some a) :
    (∃ ab, s.pins = .abstr ab ∧ (primitive p s).2.pins = .abstr (ab.after p a)) ∨
    (∃ r d, s.pins = .ref r ∧ a = r.answer p ∧ (primitive p s).2.pins = .ref (r.after p d)) := by
  unfold State.answerTo at h
  cases hp : s.pins with
  | abstr ab =>
    left
    refine ⟨ab, rfl, ?_⟩
    rw [primitive_abstr hp] at h ⊢
    revert h
    obtain ⟨o, s1⟩ := drawAnswer s
    intro h
    cases o with
    | none => simp at h
    | some raw => simp at h; simp [h]
  | ref r =>
    right
    rw [primitive_ref hp] at h ⊢
    simp at h
    exact ⟨r, _, rfl, h.symm, rfl⟩

/-- The directions after an answered primitive (10_state.md R41). -/
theorem primitive_dirs {p : Prim} {s : State} {a : Answer} (h : s.answerTo p = some a) :
    (primitive p s).2.dirClock = dirClockAfter s.dirClock p a ∧
    (primitive p s).2.dirData = dirDataAfter s.dirData p a := by
  unfold State.answerTo at h
  cases hp : s.pins with
  | abstr ab =>
    rw [primitive_abstr hp] at h ⊢
    obtain ⟨r, n, hf⟩ := drawAnswer_frame s
    revert h hf
    obtain ⟨o, s1⟩ := drawAnswer s
    rintro h rfl
    cases o with
    | none => simp at h
    | some raw => simp at h; simp [h]
  | ref r =>
    rw [primitive_ref hp] at h ⊢
    obtain ⟨d, n, hf⟩ := drawDout_frame s
    simp at h
    simp [h, hf]

/-- The clock line after a failed primitive (10_state.md R40, 93 U4). -/
theorem primitive_fail_clkLvl {p : Prim} {s : State} {k : Cause} (h : s.answerTo p = some (.fail k)) :
    (primitive p s).2.clkLvl = (match p with | .writeLevel _ => .unknown | _ => s.clkLvl) := by
  obtain ⟨ab, h1, h2⟩ | ⟨r, d, h1, h2, h3⟩ := primitive_pins h
  · simp only [State.clkLvl, h1, h2]
    cases p with
    | writeLevel l => cases l <;> rfl
    | _ => rfl
  · cases p <;> cases h2

/-- A write that answered Ok has set the line, if the line is driven (10_state.md R40, 20_memory.md R73). -/
theorem primitive_write_clkLvl {l : Level} {s : State} {v : Bool} (h : s.answerTo (.writeLevel l) = some (.ok v))
    (hd : lineDriven s.pins = true) :
    (primitive (.writeLevel l) s).2.clkLvl = driven (decide (l = .high)) := by
  obtain ⟨ab, hp, hq⟩ | ⟨r, d, hp, -, hq⟩ := primitive_pins h
  · simp only [State.clkLvl, PinLayer.clkLvl, hq]
    cases l <;> rfl
  · rw [hp] at hd
    simp only [lineDriven] at hd
    simp only [State.clkLvl, PinLayer.clkLvl, hq]
    cases l <;> simp [ReferencePins.after, ReferencePins.writes, ReferencePins.edge, hd, driven]

/-- A primitive that is neither a write nor ConfigureOutput leaves the line alone (10_state.md R40). -/
theorem primitive_other_clkLvl {p : Prim} {s : State} (hp : p.pin = .data) :
    (primitive p s).2.clkLvl = s.clkLvl := by
  cases h : s.answerTo p with
  | none =>
    obtain ⟨r, n, hf⟩ := primitive_unanswered h
    rw [hf]
  | some a =>
    obtain ⟨ab, hs, hq⟩ | ⟨r, d, hs, -, hq⟩ := primitive_pins h
    · simp only [State.clkLvl, PinLayer.clkLvl, hq, hs]
      cases p <;> cases a <;> simp_all [Prim.pin, AbstractPins.after]
    · simp only [State.clkLvl, PinLayer.clkLvl, hq, hs]
      cases p with
      | writeLevel l => cases hp
      | configureOutput => cases hp
      | configureInput | readLevel | armFallingEdge | disarmEdge | edgeWasDetected => rfl

/-- Only arming and disarming touch `EDGE_ARMED` (10_state.md R42). -/
theorem primitive_other_edgeArmed {p : Prim} {s : State} (h1 : p ≠ .armFallingEdge) (h2 : p ≠ .disarmEdge) :
    (primitive p s).2.edgeArmed = s.edgeArmed := by
  cases h : s.answerTo p with
  | none =>
    obtain ⟨r, n, hf⟩ := primitive_unanswered h
    rw [hf]
  | some a =>
    obtain ⟨ab, hs, hq⟩ | ⟨r, d, hs, -, hq⟩ := primitive_pins h
    · simp only [State.edgeArmed, PinLayer.edgeArmed, hq, hs]
      cases p with
      | writeLevel l => cases l <;> cases a <;> rfl
      | armFallingEdge => exact absurd rfl h1
      | disarmEdge => exact absurd rfl h2
      | configureInput | configureOutput | readLevel | edgeWasDetected => cases a <;> rfl
    · simp only [State.edgeArmed, PinLayer.edgeArmed, hq, hs]
      cases p with
      | writeLevel l => cases l <;> rfl
      | armFallingEdge => exact absurd rfl h1
      | disarmEdge => exact absurd rfl h2
      | configureInput | configureOutput | readLevel | edgeWasDetected => rfl

theorem primitive_arm_edgeArmed {s : State} {v : Bool} (h : s.answerTo .armFallingEdge = some (.ok v)) :
    (primitive .armFallingEdge s).2.edgeArmed = .set := by
  obtain ⟨ab, hs, hq⟩ | ⟨r, d, hs, -, hq⟩ := primitive_pins h
  · simp [State.edgeArmed, PinLayer.edgeArmed, hq, AbstractPins.after]
  · simp [State.edgeArmed, PinLayer.edgeArmed, hq, ReferencePins.after, ReferencePins.writes, knownFlag]

theorem primitive_disarm_edgeArmed {s : State} {v : Bool} (h : s.answerTo .disarmEdge = some (.ok v)) :
    (primitive .disarmEdge s).2.edgeArmed = .clear := by
  obtain ⟨ab, hs, hq⟩ | ⟨r, d, hs, -, hq⟩ := primitive_pins h
  · simp [State.edgeArmed, PinLayer.edgeArmed, hq, AbstractPins.after]
  · simp [State.edgeArmed, PinLayer.edgeArmed, hq, ReferencePins.after, ReferencePins.writes, knownFlag]

/-- A line once driven stays driven through every primitive. -/
theorem primitive_lineDriven {p : Prim} {s : State} (hd : lineDriven s.pins = true) :
    lineDriven (primitive p s).2.pins = true := by
  cases h : s.answerTo p with
  | none =>
    obtain ⟨r, n, hf⟩ := primitive_unanswered h
    rw [hf]; exact hd
  | some a =>
    obtain ⟨ab, hs, hq⟩ | ⟨r, d, hs, -, hq⟩ := primitive_pins h
    · rw [hq]; rfl
    · rw [hq]
      rw [hs] at hd
      cases p with
      | writeLevel l => cases l <;> exact hd
      | configureOutput => rfl
      | configureInput | readLevel | armFallingEdge | disarmEdge | edgeWasDetected => exact hd

/-- A primitive leaves the binding, and so the sampling margin, as it was. -/
@[simp] theorem primitive_keepsMargin (p : Prim) (s : State) (q : Params) :
    (primitive p s).2.pins.keepsMargin q = s.pins.keepsMargin q := by
  cases h : s.answerTo p with
  | none =>
    obtain ⟨r, n, hf⟩ := primitive_unanswered h
    rw [hf]
  | some a =>
    obtain ⟨ab, hs, hq⟩ | ⟨r, d, hs, -, hq⟩ := primitive_pins h <;> rw [hs, hq] <;> rfl

/-- `ConfigureOutput` enables the output (20_memory.md R66). -/
theorem primitive_configureOutput_lineDriven {s : State} {a : Answer} (h : s.answerTo .configureOutput = some a) :
    lineDriven (primitive .configureOutput s).2.pins = true := by
  obtain ⟨ab, hs, hq⟩ | ⟨r, d, hs, -, hq⟩ := primitive_pins h
  · rw [hq]; rfl
  · rw [hq]; rfl

/-- In the `reference` binding no primitive fails and every one is answered (20_memory.md R66). -/
theorem answerTo_ref {s : State} {r : ReferencePins} (h : s.pins = .ref r) (p : Prim) :
    s.answerTo p = some (r.answer p) ∧ ∃ v, r.answer p = .ok v := by
  refine ⟨by simp [State.answerTo, primitive_ref h], ?_⟩
  cases p <;> exact ⟨_, rfl⟩

/-- The answers of the primitives that carry no value. -/
theorem answerTo_reply {s : State} {a : AbstractPins} {raw : Answer} {rest : List (Option Answer)}
    (h : s.pins = .abstr a) (hr : s.replies = some raw :: rest) (p : Prim) :
    s.answerTo p = some (p.settle s.params raw) := by
  rw [State.answerTo, primitive_reply h hr]

@[simp] theorem settle_fail (ps : Params) (p : Prim) (c : Cause) : p.settle ps (.fail c) = .fail (causeField ps c) := by
  cases p <;> rfl

@[simp] theorem settle_ok_false (ps : Params) (p : Prim) : p.settle ps (.ok false) = .ok false := by
  cases p <;> rfl

theorem causeField_lt (ps : Params) (c : Cause) : (causeField ps c).toNat < 2 ^ ps.causeW := by
  unfold causeField
  rw [BitVec.toNat_setWidth]
  exact Nat.lt_of_le_of_lt (Nat.mod_le _ _) (BitVec.isLt _)

/-- A cause the controller sees has `CAUSE_W` bits. -/
theorem answerTo_cause {p : Prim} {s : State} {k : Cause} (h : s.answerTo p = some (.fail k)) :
    k.toNat < 2 ^ s.params.causeW := by
  unfold State.answerTo at h
  cases hp : s.pins with
  | abstr ab =>
    rw [primitive_abstr hp] at h
    revert h
    obtain ⟨o, s1⟩ := drawAnswer s
    intro h
    cases o with
    | none => cases h
    | some raw =>
      have h : p.settle s.params raw = .fail k := by simpa using h
      cases raw with
      | ok v => cases p <;> cases h
      | fail c => rw [settle_fail] at h; injection h with h; exact h ▸ causeField_lt _ _
  | ref r =>
    rw [primitive_ref hp] at h
    cases p <;> cases h

/-! ### The micro-step that issues a primitive -/

/-- Everything `issue` can do when the pin layer is set up. -/
theorem issue_ready {s : State} (h : s.ready = true) (p : Prim) (k : Answer → State → State) :
    issue p s k = .next (match s.answerTo p with
      | none => (primitive p s).2
      | some a => k a (primitive p s).2) := by
  unfold issue State.answerTo
  rw [if_pos h]
  obtain ⟨o, s1⟩ := primitive p s
  cases o <;> rfl

theorem issue_answered {s : State} {p : Prim} {a : Answer} (h : s.ready = true) (ha : s.answerTo p = some a)
    (k : Answer → State → State) : issue p s k = .next (k a (primitive p s).2) := by
  rw [issue_ready h, ha]

theorem issue_unready {s : State} (h : s.ready = false) (p : Prim) (k : Answer → State → State) :
    issue p s k = .refused .pinLayerNotReady := by
  simp [issue, h]

/-- If `issue` answers next, the primitive was unanswered or its continuation ran. -/
theorem issue_next {s t : State} {p : Prim} {k : Answer → State → State} (h : issue p s k = .next t) :
    s.ready = true ∧ ((s.answerTo p = none ∧ t = (primitive p s).2) ∨
      ∃ a, s.answerTo p = some a ∧ t = k a (primitive p s).2) := by
  cases hr : s.ready with
  | false => rw [issue_unready hr] at h; cases h
  | true =>
    refine ⟨rfl, ?_⟩
    rw [issue_ready hr] at h
    injection h with h
    cases ha : s.answerTo p with
    | none => rw [ha] at h; exact .inl ⟨rfl, h.symm⟩
    | some a => rw [ha] at h; exact .inr ⟨a, rfl, h.symm⟩

/-! ### `fail_io` -/

@[simp] theorem failIo_params (p : Prim) (c : Cause) (s : State) : (failIo p c s).params = s.params := by
  unfold failIo; split <;> rfl
@[simp] theorem failIo_ready (p : Prim) (c : Cause) (s : State) : (failIo p c s).ready = s.ready := by
  unfold failIo; split <;> rfl
@[simp] theorem failIo_acc (p : Prim) (c : Cause) (s : State) : (failIo p c s).acc = s.acc := by
  unfold failIo; split <;> rfl
@[simp] theorem failIo_result (p : Prim) (c : Cause) (s : State) : (failIo p c s).result = s.result := by
  unfold failIo; split <;> rfl
@[simp] theorem failIo_pos (p : Prim) (c : Cause) (s : State) : (failIo p c s).pos = s.pos := by
  unfold failIo; split <;> rfl
@[simp] theorem failIo_bitcnt (p : Prim) (c : Cause) (s : State) : (failIo p c s).bitcnt = s.bitcnt := by
  unfold failIo; split <;> rfl
@[simp] theorem failIo_pulsecnt (p : Prim) (c : Cause) (s : State) : (failIo p c s).pulsecnt = s.pulsecnt := by
  unfold failIo; split <;> rfl
@[simp] theorem failIo_pollcnt (p : Prim) (c : Cause) (s : State) : (failIo p c s).pollcnt = s.pollcnt := by
  unfold failIo; split <;> rfl
@[simp] theorem failIo_pend (p : Prim) (c : Cause) (s : State) : (failIo p c s).pend = s.pend := by
  unfold failIo; split <;> rfl
@[simp] theorem failIo_endpulses (p : Prim) (c : Cause) (s : State) : (failIo p c s).endpulses = s.endpulses := by
  unfold failIo; split <;> rfl
@[simp] theorem failIo_cpin (p : Prim) (c : Cause) (s : State) : (failIo p c s).cpin = s.cpin := by
  unfold failIo; split <;> rfl
@[simp] theorem failIo_dpin (p : Prim) (c : Cause) (s : State) : (failIo p c s).dpin = s.dpin := by
  unfold failIo; split <;> rfl
@[simp] theorem failIo_busy (p : Prim) (c : Cause) (s : State) : (failIo p c s).busy = s.busy := by
  unfold failIo; split <;> rfl
@[simp] theorem failIo_done (p : Prim) (c : Cause) (s : State) : (failIo p c s).done = s.done := by
  unfold failIo; split <;> rfl
@[simp] theorem failIo_code (p : Prim) (c : Cause) (s : State) : (failIo p c s).code = s.code := by
  unfold failIo; split <;> rfl
@[simp] theorem failIo_resultValid (p : Prim) (c : Cause) (s : State) : (failIo p c s).resultValid = s.resultValid := by
  unfold failIo; split <;> rfl
@[simp] theorem failIo_initialised (p : Prim) (c : Cause) (s : State) : (failIo p c s).initialised = s.initialised := by
  unfold failIo; split <;> rfl
@[simp] theorem failIo_rspValid (p : Prim) (c : Cause) (s : State) : (failIo p c s).rspValid = s.rspValid := by
  unfold failIo; split <;> rfl
@[simp] theorem failIo_dirClock (p : Prim) (c : Cause) (s : State) : (failIo p c s).dirClock = s.dirClock := by
  unfold failIo; split <;> rfl
@[simp] theorem failIo_dirData (p : Prim) (c : Cause) (s : State) : (failIo p c s).dirData = s.dirData := by
  unfold failIo; split <;> rfl
@[simp] theorem failIo_pins (p : Prim) (c : Cause) (s : State) : (failIo p c s).pins = s.pins := by
  unfold failIo; split <;> rfl
@[simp] theorem failIo_cmds (p : Prim) (c : Cause) (s : State) : (failIo p c s).cmds = s.cmds := by
  unfold failIo; split <;> rfl
@[simp] theorem failIo_rstn (p : Prim) (c : Cause) (s : State) : (failIo p c s).rstn = s.rstn := by
  unfold failIo; split <;> rfl
@[simp] theorem failIo_replies (p : Prim) (c : Cause) (s : State) : (failIo p c s).replies = s.replies := by
  unfold failIo; split <;> rfl
@[simp] theorem failIo_dout (p : Prim) (c : Cause) (s : State) : (failIo p c s).dout = s.dout := by
  unfold failIo; split <;> rfl
@[simp] theorem failIo_draws (p : Prim) (c : Cause) (s : State) : (failIo p c s).draws = s.draws := by
  unfold failIo; split <;> rfl
@[simp] theorem failIo_log (p : Prim) (c : Cause) (s : State) : (failIo p c s).log = s.log := by
  unfold failIo; split <;> rfl

/-- The first failure of a command (40_primitives.md R133). -/
theorem failIo_first {s : State} (h : s.pend = .none ∨ s.pend = .ready) (p : Prim) (c : Cause) :
    failIo p c s = { s with iocause := ⟨p.kind, p.pin, c⟩ } := by
  obtain h | h := h <;> simp [failIo, h]

/-- A failure on an already-failed path (40_primitives.md R133). -/
theorem failIo_later {s : State} (h : s.pend = .timeout ∨ s.pend = .ioerr) (p : Prim) (c : Cause) :
    failIo p c s = { s with cleanupFail := true } := by
  obtain h | h := h <;> simp [failIo, h]

@[simp] theorem failIo_clkLvl (p : Prim) (c : Cause) (s : State) : (failIo p c s).clkLvl = s.clkLvl := by
  simp [State.clkLvl]

@[simp] theorem failIo_edgeArmed (p : Prim) (c : Cause) (s : State) : (failIo p c s).edgeArmed = s.edgeArmed := by
  simp [State.edgeArmed]

/-! ### Acceptance -/

@[simp] theorem accepted_params (s : State) : (accepted s).params = s.params := by simp [accepted]
@[simp] theorem accepted_ready (s : State) : (accepted s).ready = s.ready := by simp [accepted]
@[simp] theorem accepted_acc (s : State) : (accepted s).acc = s.acc := by simp [accepted]
@[simp] theorem accepted_result (s : State) : (accepted s).result = s.result := by simp [accepted]
@[simp] theorem accepted_pos (s : State) : (accepted s).pos = s.pos := by simp [accepted]
@[simp] theorem accepted_bitcnt (s : State) : (accepted s).bitcnt = s.bitcnt := by simp [accepted]
@[simp] theorem accepted_pulsecnt (s : State) : (accepted s).pulsecnt = s.pulsecnt := by simp [accepted]
@[simp] theorem accepted_pollcnt (s : State) : (accepted s).pollcnt = s.pollcnt := by simp [accepted]
@[simp] theorem accepted_pend (s : State) : (accepted s).pend = s.pend := by simp [accepted]
@[simp] theorem accepted_endpulses (s : State) : (accepted s).endpulses = s.endpulses := by simp [accepted]
@[simp] theorem accepted_cpin (s : State) : (accepted s).cpin = s.cpin := by simp [accepted]
@[simp] theorem accepted_dpin (s : State) : (accepted s).dpin = s.dpin := by simp [accepted]
@[simp] theorem accepted_busy (s : State) : (accepted s).busy = s.busy := by simp [accepted]
@[simp] theorem accepted_done (s : State) : (accepted s).done = false := by simp [accepted]
@[simp] theorem accepted_code (s : State) : (accepted s).code = .ok := by simp [accepted]
@[simp] theorem accepted_resultValid (s : State) : (accepted s).resultValid = s.resultValid := by simp [accepted]
@[simp] theorem accepted_initialised (s : State) : (accepted s).initialised = s.initialised := by simp [accepted]
@[simp] theorem accepted_cleanupFail (s : State) : (accepted s).cleanupFail = false := by simp [accepted]
@[simp] theorem accepted_iocause (s : State) : (accepted s).iocause = .clear := by simp [accepted]
@[simp] theorem accepted_rspValid (s : State) : (accepted s).rspValid = s.rspValid := by simp [accepted]
@[simp] theorem accepted_dirClock (s : State) : (accepted s).dirClock = s.dirClock := by simp [accepted]
@[simp] theorem accepted_dirData (s : State) : (accepted s).dirData = s.dirData := by simp [accepted]
@[simp] theorem accepted_cmds (s : State) : (accepted s).cmds = s.cmds := by simp [accepted]
@[simp] theorem accepted_rstn (s : State) : (accepted s).rstn = s.rstn := by simp [accepted]
@[simp] theorem accepted_replies (s : State) : (accepted s).replies = s.replies := by simp [accepted]
@[simp] theorem accepted_log (s : State) : (accepted s).log = s.log := by simp [accepted]

@[simp] theorem accepted_pins (s : State) : (accepted s).pins = (cycle s).pins := rfl

@[simp] theorem accepted_clkLvl (s : State) : (accepted s).clkLvl = s.clkLvl := cycle_clkLvl s

@[simp] theorem accepted_edgeArmed (s : State) : (accepted s).edgeArmed = s.edgeArmed := cycle_edgeArmed s

theorem accepted_abstr {s : State} {a : AbstractPins} (h : s.pins = .abstr a) :
    accepted s = { s with done := false, code := .ok, cleanupFail := false, iocause := .clear } := by
  simp [accepted, cycle_abstr h]

/-- Everything `launch` can do: begin, or refuse while the pin layer is not set up. -/
theorem launch_next {p : Pos} {s t : State} (h : launch p s = .next t) : s.ready = true ∧ t = begin p s := by
  unfold launch at h
  split at h
  · next hr => injection h with h; exact ⟨hr, h.symm⟩
  · cases h

theorem launch_ok {s : State} (hr : s.ready = true) (p : Pos) : launch p s = .next (begin p s) := by
  simp [launch, hr]

/-- Shared pins, said of the two handles. -/
theorem shared_eq_false {s : State} : s.shared = false ↔ (s.initialised = true → s.cpin ≠ s.dpin) := by
  simp [State.shared]

theorem unlessShared_ok {s : State} (h : s.initialised = true → s.cpin ≠ s.dpin) (k : Out) : unlessShared s k = k := by
  simp [unlessShared, shared_eq_false.mpr h]

theorem unlessShared_refused {s : State} (hi : s.initialised = true) (hp : s.cpin = s.dpin) (k : Out) :
    unlessShared s k = .refused .sharedPins := by
  simp [unlessShared, State.shared, hi, hp]

/-- Everything `unlessShared` can do when it goes on. -/
theorem unlessShared_next {s t : State} {k : Out} (h : unlessShared s k = .next t) :
    (s.initialised = true → s.cpin ≠ s.dpin) ∧ k = .next t := by
  unfold unlessShared at h
  split at h
  · cases h
  · next hs => exact ⟨shared_eq_false.mp (by simpa using hs), h⟩

/-- Everything `whenInitialised` can do. -/
theorem whenInitialised_next {s t : State} {k : State → Out} (h : whenInitialised s k = .next t) :
    (s.initialised = true ∧ s.cpin ≠ s.dpin ∧ k (accepted s) = .next t) ∨
    (s.initialised = false ∧ t = complete .notInitialised (accepted s)) := by
  obtain ⟨hs, h⟩ := unlessShared_next h
  split at h
  · next hi => exact .inl ⟨hi, hs hi, h⟩
  · next hi => injection h with h; exact .inr ⟨by simpa using hi, h.symm⟩

theorem whenInitialised_ok {s : State} (hi : s.initialised = true) (hp : s.cpin ≠ s.dpin) (k : State → Out) :
    whenInitialised s k = k (accepted s) := by
  simp [whenInitialised, unlessShared_ok (fun _ => hp), hi]

theorem whenInitialised_not {s : State} (hi : s.initialised = false) (k : State → Out) :
    whenInitialised s k = .next (complete .notInitialised (accepted s)) := by
  simp [whenInitialised, unlessShared_ok (s := s) (by simp [hi]), hi]

/-! ### The host's port -/

theorem offered_frame (s : State) : ∃ c, (offered s).2 = { s with cmds := c } := by
  unfold offered
  split
  · exact ⟨s.cmds, rfl⟩
  · exact ⟨_, rfl⟩

@[simp] theorem offered_cons {s : State} {w : Option Word} {rest : List (Option Word)} (h : s.cmds = w :: rest) :
    offered s = (w, { s with cmds := rest }) := by
  simp [offered, h]


end Sys2Proof.Machine
end

