-- ==== Sys2Proof/Laws/Step.lean ====
section
/-! SUPPORT. Everything a step can do, said once: `step_cases` and the two lists of named cases it goes through. -/

namespace Sys2Proof.Machine

/-! ### The state an idle micro-step starts its acceptance from -/

/-- The micro-step has begun and the offered word, if any, has been taken from the port. -/
def taken (s : State) : State := { tick s with cmds := s.cmds.tail }

@[simp] theorem taken_params (s : State) : (taken s).params = s.params := rfl
@[simp] theorem taken_ready (s : State) : (taken s).ready = s.ready := rfl
@[simp] theorem taken_acc (s : State) : (taken s).acc = s.acc := rfl
@[simp] theorem taken_result (s : State) : (taken s).result = s.result := rfl
@[simp] theorem taken_pos (s : State) : (taken s).pos = s.pos := rfl
@[simp] theorem taken_bitcnt (s : State) : (taken s).bitcnt = s.bitcnt := rfl
@[simp] theorem taken_pulsecnt (s : State) : (taken s).pulsecnt = s.pulsecnt := rfl
@[simp] theorem taken_pollcnt (s : State) : (taken s).pollcnt = s.pollcnt := rfl
@[simp] theorem taken_pend (s : State) : (taken s).pend = s.pend := rfl
@[simp] theorem taken_endpulses (s : State) : (taken s).endpulses = s.endpulses := rfl
@[simp] theorem taken_cpin (s : State) : (taken s).cpin = s.cpin := rfl
@[simp] theorem taken_dpin (s : State) : (taken s).dpin = s.dpin := rfl
@[simp] theorem taken_busy (s : State) : (taken s).busy = s.busy := rfl
@[simp] theorem taken_done (s : State) : (taken s).done = s.done := rfl
@[simp] theorem taken_code (s : State) : (taken s).code = s.code := rfl
@[simp] theorem taken_resultValid (s : State) : (taken s).resultValid = s.resultValid := rfl
@[simp] theorem taken_initialised (s : State) : (taken s).initialised = s.initialised := rfl
@[simp] theorem taken_cleanupFail (s : State) : (taken s).cleanupFail = s.cleanupFail := rfl
@[simp] theorem taken_iocause (s : State) : (taken s).iocause = s.iocause := rfl
@[simp] theorem taken_rspValid (s : State) : (taken s).rspValid = false := rfl
@[simp] theorem taken_dirClock (s : State) : (taken s).dirClock = s.dirClock := rfl
@[simp] theorem taken_dirData (s : State) : (taken s).dirData = s.dirData := rfl
@[simp] theorem taken_pins (s : State) : (taken s).pins = s.pins := rfl
@[simp] theorem taken_cmds (s : State) : (taken s).cmds = s.cmds.tail := rfl
@[simp] theorem taken_rstn (s : State) : (taken s).rstn = s.rstn.tail := rfl
@[simp] theorem taken_replies (s : State) : (taken s).replies = s.replies := rfl
@[simp] theorem taken_dout (s : State) : (taken s).dout = s.dout := rfl
@[simp] theorem taken_draws (s : State) : (taken s).draws = s.draws := rfl
@[simp] theorem taken_log (s : State) : (taken s).log = s.log := rfl

@[simp] theorem taken_clkLvl (s : State) : (taken s).clkLvl = s.clkLvl := rfl
@[simp] theorem taken_edgeArmed (s : State) : (taken s).edgeArmed = s.edgeArmed := rfl

/-! ### Acceptance -/

/-- What an idle micro-step out of hardware reset can do with the offered word `w`, on the state `u` in which the word has
been taken. -/
inductive Accepts (w : Option Word) (u : State) : State → Prop where
  | quiet (hw : w = none) : Accepts w u (cycle u)
  | illegal (x : Word) (e : Illegal) (hw : w = some x) (hd : decode x = .error e) : Accepts w u (acceptIllegal u)
  | initClock (x : Word) (c d : PinId) (hw : w = some x) (hd : decode x = .ok (.init c d))
      (hs : u.initialised = true → u.cpin ≠ u.dpin) (hc : pinValid u.params c = false) :
      Accepts w u (complete .configError
        { accepted u with initialised := false, resultValid := false, iocause := ⟨.none, .clock, 0⟩ })
  | initData (x : Word) (c d : PinId) (hw : w = some x) (hd : decode x = .ok (.init c d))
      (hs : u.initialised = true → u.cpin ≠ u.dpin) (hc : pinValid u.params c = true)
      (hd' : pinValid u.params d = false) :
      Accepts w u (complete .configError
        { accepted u with initialised := false, resultValid := false, iocause := ⟨.none, .data, 0⟩ })
  | init (x : Word) (c d : PinId) (hw : w = some x) (hd : decode x = .ok (.init c d))
      (hs : u.initialised = true → u.cpin ≠ u.dpin) (hc : pinValid u.params c = true)
      (hd' : pinValid u.params d = true) (hr : u.ready = true) :
      Accepts w u (begin .i0 { accepted u with initialised := false, resultValid := false, cpin := c, dpin := d })
  | notInitialised (x : Word) (i : Instr) (hw : w = some x) (hd : decode x = .ok i) (hi : ∀ c d, i ≠ .init c d)
      (h : u.initialised = false) : Accepts w u (complete .notInitialised (accepted u))
  | reset (x : Word) (hw : w = some x) (hd : decode x = .ok .reset) (h : u.initialised = true) (hr : u.ready = true)
      (hp : u.cpin ≠ u.dpin) : Accepts w u (begin .rs0 (accepted u))
  | shutdown (x : Word) (hw : w = some x) (hd : decode x = .ok .shutdown) (h : u.initialised = true)
      (hr : u.ready = true) (hp : u.cpin ≠ u.dpin) : Accepts w u (begin .s0 (accepted u))
  | read (x : Word) (hw : w = some x) (hd : decode x = .ok .read) (h : u.initialised = true) (hr : u.ready = true)
      (hp : u.cpin ≠ u.dpin) : Accepts w u (begin .w0 (readClear (accepted u)))
  | setgain (x : Word) (n : BitVec 2) (hw : w = some x) (hd : decode x = .ok (.setgain n)) (hn : n ≠ 0)
      (h : u.initialised = true) (hp : u.cpin ≠ u.dpin) : Accepts w u (complete .ok { accepted u with endpulses := n })
  | setgainZero (x : Word) (hw : w = some x) (hd : decode x = .ok (.setgain 0)) (h : u.initialised = true)
      (hp : u.cpin ≠ u.dpin) :
      Accepts w u (complete .configError (accepted u))

theorem gainLegal_eq (n : BitVec 2) : gainLegal n = true ↔ n ≠ 0 := by simp [gainLegal]

theorem exec_idle_cases {i : Instr} {x : Word} {u t : State} (hp : u.pos = .idle) (hd : decode x = .ok i)
    (h : exec i u = .next t) : Accepts (some x) u t := by
  cases i with
  | init c d =>
    simp only [exec, execInit, hp] at h
    obtain ⟨hs, h⟩ := unlessShared_next h
    split at h
    · next hr =>
      injection h with h
      subst h
      unfold initAccept
      cases hc : pinValid u.params c with
      | false => simpa [hc, unresolved] using Accepts.initClock x c d rfl hd hs hc
      | true =>
        cases hd' : pinValid u.params d with
        | false => simpa [hc, hd', unresolved] using Accepts.initData x c d rfl hd hs hc hd'
        | true =>
          simp only [initNeedsPins, hc, hd'] at hr
          simpa [hc, hd'] using Accepts.init x c d rfl hd hs hc hd' (by simpa using hr)
    · cases h
  | reset =>
    simp only [exec, execReset, hp] at h
    obtain ⟨hi, hc, h⟩ | ⟨hi, rfl⟩ := whenInitialised_next h
    · obtain ⟨hr, rfl⟩ := launch_next h
      exact .reset x rfl hd hi (by simpa using hr) hc
    · exact .notInitialised x _ rfl hd (by simp) hi
  | shutdown =>
    simp only [exec, execShutdown, hp] at h
    obtain ⟨hi, hc, h⟩ | ⟨hi, rfl⟩ := whenInitialised_next h
    · obtain ⟨hr, rfl⟩ := launch_next h
      exact .shutdown x rfl hd hi (by simpa using hr) hc
    · exact .notInitialised x _ rfl hd (by simp) hi
  | read =>
    simp only [exec, execRead, hp] at h
    obtain ⟨hi, hc, h⟩ | ⟨hi, rfl⟩ := whenInitialised_next h
    · obtain ⟨hr, rfl⟩ := launch_next h
      exact .read x rfl hd hi (by simpa using hr) hc
    · exact .notInitialised x _ rfl hd (by simp) hi
  | setgain n =>
    simp only [exec, execSetgain, hp] at h
    obtain ⟨hi, hc, h⟩ | ⟨hi, rfl⟩ := whenInitialised_next h
    · injection h with h
      subst h
      unfold setgainAccept
      split
      · next hn => exact .setgain x n rfl hd ((gainLegal_eq n).mp hn) hi hc
      · next hn =>
        have : n = 0 := by simpa [gainLegal] using hn
        subst this
        exact .setgainZero x rfl hd hi hc
    · exact .notInitialised x _ rfl hd (by simp) hi

theorem stepIdle_cases {s t : State} (hp : s.pos = .idle) (h : stepIdle s = .next t) :
    ∃ c, (offered s).2 = { s with cmds := c } ∧ Accepts (offered s).1 { s with cmds := c } t := by
  obtain ⟨c, hc⟩ := offered_frame s
  refine ⟨c, hc, ?_⟩
  unfold stepIdle at h
  revert h hc
  obtain ⟨w, s1⟩ := offered s
  rintro h rfl
  cases w with
  | none => injection h with h; subst h; exact .quiet rfl
  | some x =>
    simp only at h
    cases hd : decode x with
    | error e => rw [hd] at h; injection h with h; subst h; exact .illegal x e rfl hd
    | ok i => rw [hd] at h; exact exec_idle_cases hp hd h

/-- The word offered and what is left of the port. -/
theorem offered_eq (s : State) : offered s = (s.cmds.head?.join, { s with cmds := s.cmds.tail }) := by
  cases s
  unfold offered
  split <;> simp_all

/-! ### A command in progress -/

/-- What a micro-step of a command in progress can do, on the state `u` that stands at the position of the step. -/
inductive Works (u : State) : State → Prop where
  | wait (p : Prim) (hp : u.pos.prim = some p) (hr : u.ready = true) (ha : u.answerTo p = none) :
      Works u (primitive p u).2
  | i0 (v : Bool) (hp : u.pos = .i0) (hr : u.ready = true) (ha : u.answerTo .configureInput = some (.ok v)) :
      Works u (goto .i1 (primitive .configureInput u).2)
  | i1 (v : Bool) (hp : u.pos = .i1) (hr : u.ready = true) (ha : u.answerTo .configureOutput = some (.ok v)) :
      Works u (complete .ok { (primitive .configureOutput u).2 with
        endpulses := Config.endPulsesDefault, initialised := true })
  | initFail (p : Prim) (k : Cause) (hp : u.pos.phase = .init) (hq : u.pos.prim = some p) (hr : u.ready = true)
      (ha : u.answerTo p = some (.fail k)) : Works u (failWith .configError p k (primitive p u).2)
  | rs0 (v : Bool) (hp : u.pos = .rs0) (hr : u.ready = true) (ha : u.answerTo (.writeLevel .low) = some (.ok v)) :
      Works u (goto .rs1 (primitive (.writeLevel .low) u).2)
  | rs1 (v : Bool) (hp : u.pos = .rs1) (hr : u.ready = true) (ha : u.answerTo (.writeLevel .high) = some (.ok v)) :
      Works u (goto .rs2 (primitive (.writeLevel .high) u).2)
  | rs2 (hp : u.pos = .rs2) : Works u (goto .rs3 (delay u.params.tResetHold u))
  | rs3 (v : Bool) (hp : u.pos = .rs3) (hr : u.ready = true) (ha : u.answerTo (.writeLevel .low) = some (.ok v)) :
      Works u (complete .ok (primitive (.writeLevel .low) u).2)
  | s0 (v : Bool) (hp : u.pos = .s0) (hr : u.ready = true) (ha : u.answerTo (.writeLevel .high) = some (.ok v)) :
      Works u (complete .ok (primitive (.writeLevel .high) u).2)
  | w0 (v : Bool) (hp : u.pos = .w0) (hr : u.ready = true) (ha : u.answerTo .armFallingEdge = some (.ok v)) :
      Works u (goto .w1 (primitive .armFallingEdge u).2)
  | w1 (v : Bool) (hp : u.pos = .w1) (hr : u.ready = true) (ha : u.answerTo (.writeLevel .low) = some (.ok v)) :
      Works u (goto .w2 (primitive (.writeLevel .low) u).2)
  | w2Low (hp : u.pos = .w2) (hr : u.ready = true) (ha : u.answerTo .readLevel = some (.ok false)) :
      Works u (leaveWait .ready (primitive .readLevel u).2)
  | w2High (hp : u.pos = .w2) (hr : u.ready = true) (ha : u.answerTo .readLevel = some (.ok true)) :
      Works u (goto .w3 (primitive .readLevel u).2)
  | w3Edge (hp : u.pos = .w3) (hr : u.ready = true) (ha : u.answerTo .edgeWasDetected = some (.ok true)) :
      Works u (leaveWait .ready (primitive .edgeWasDetected u).2)
  | w3None (hp : u.pos = .w3) (hr : u.ready = true) (ha : u.answerTo .edgeWasDetected = some (.ok false)) :
      Works u (goto .w4 { (primitive .edgeWasDetected u).2 with pollcnt := u.pollcnt + 1 })
  | w4Last (hp : u.pos = .w4) (hn : u.pollcnt = u.params.pollAttempts) :
      Works u (leaveWait .timeout (delay u.params.tPoll u))
  | w4More (hp : u.pos = .w4) (hn : u.pollcnt ≠ u.params.pollAttempts) : Works u (goto .w3 (delay u.params.tPoll u))
  | waitFail (p : Prim) (k : Cause) (hp : u.pos = .w1 ∨ u.pos = .w2 ∨ u.pos = .w3) (hq : u.pos.prim = some p)
      (hr : u.ready = true) (ha : u.answerTo p = some (.fail k)) : Works u (waitFailed p k (primitive p u).2)
  | w5Shift (v : Bool) (hp : u.pos = .w5) (hd : u.pend = .ready) (hr : u.ready = true)
      (ha : u.answerTo .disarmEdge = some (.ok v)) :
      Works u (goto .b0 { (primitive .disarmEdge u).2 with pend := .none })
  | w5Disarm (k : Cause) (hp : u.pos = .w5) (hd : u.pend = .ready) (hr : u.ready = true)
      (ha : u.answerTo .disarmEdge = some (.fail k)) :
      Works u (complete .ioError { failIo .disarmEdge k (primitive .disarmEdge u).2 with pend := .none })
  | w5End (c : Code) (v : Bool) (hp : u.pos = .w5)
      (hd : u.pend = .timeout ∧ c = .timeoutError ∨ u.pend = .ioerr ∧ c = .ioError) (hr : u.ready = true)
      (ha : u.answerTo .disarmEdge = some (.ok v)) :
      Works u (complete c { (primitive .disarmEdge u).2 with pend := .none })
  | w5EndFail (c : Code) (k : Cause) (hp : u.pos = .w5)
      (hd : u.pend = .timeout ∧ c = .timeoutError ∨ u.pend = .ioerr ∧ c = .ioError) (hr : u.ready = true)
      (ha : u.answerTo .disarmEdge = some (.fail k)) :
      Works u (complete c { failIo .disarmEdge k (primitive .disarmEdge u).2 with pend := .none })
  | rise (p q : Pos) (v : Bool) (hp : u.pos = p)
      (hq : p = .b0 ∧ q = .b1 ∨ p = .b0 ∧ q = .b2 ∨ p = .e0 ∧ q = .e1 ∨ p = .e0 ∧ q = .e2)
      (h0 : (q = .b1 ∨ q = .e1) ↔ u.params.tHigh ≠ 0) (hr : u.ready = true)
      (ha : u.answerTo (.writeLevel .high) = some (.ok v)) : Works u (goto q (primitive (.writeLevel .high) u).2)
  | hold (p q : Pos) (hp : u.pos = p) (hq : p = .b1 ∧ q = .b2 ∨ p = .e1 ∧ q = .e2) :
      Works u (goto q (delay u.params.tHigh u))
  | fall (p q : Pos) (v : Bool) (hp : u.pos = p) (hq : p = .b2 ∧ q = .b3 ∨ p = .b2 ∧ q = .b4 ∨ p = .e2 ∧ q = .e3)
      (h0 : (q = .b3 ∨ q = .e3) ↔ u.params.tLow ≠ 0) (hr : u.ready = true)
      (ha : u.answerTo (.writeLevel .low) = some (.ok v)) : Works u (goto q (primitive (.writeLevel .low) u).2)
  | b3 (hp : u.pos = .b3) : Works u (goto .b4 (delay u.params.tLow u))
  | b4 (v : Bool) (q : Pos) (hp : u.pos = .b4) (hq : q = if u.bitcnt + 1 = 24 then .e0 else .b0) (hr : u.ready = true)
      (ha : u.answerTo .readLevel = some (.ok v)) :
      Works u (goto q { (primitive .readLevel u).2 with
        acc := shiftIn u.acc (levelOf v), bitcnt := u.bitcnt + 1 })
  | countFall (v : Bool) (hp : u.pos = .e2) (h0 : u.params.tLow = 0) (hr : u.ready = true)
      (ha : u.answerTo (.writeLevel .low) = some (.ok v)) : Works u (countPulse (primitive (.writeLevel .low) u).2)
  | count (hp : u.pos = .e3) : Works u (countPulse (delay u.params.tLow u))
  | fail (p : Prim) (k : Cause)
      (hp : u.pos = .w0 ∨ u.pos.phase = .reset ∨ u.pos.phase = .shutdown ∨ u.pos.phase = .shift
        ∨ u.pos.phase = .endpulse) (hq : u.pos.prim = some p) (hr : u.ready = true)
      (ha : u.answerTo p = some (.fail k)) : Works u (failWith .ioError p k (primitive p u).2)

/-- A micro-step that issues a primitive: it waits, or its continuation takes the answer. -/
theorem issue_cases {s t : State} {p : Prim} {k : Answer → State → State} (hp : s.pos.prim = some p)
    (h : issue p s k = .next t) :
    Works s t ∨ s.ready = true ∧ ∃ a, s.answerTo p = some a ∧ t = k a (primitive p s).2 := by
  obtain ⟨hr, ⟨ha, rfl⟩ | ⟨a, ha, rfl⟩⟩ := issue_next h
  · exact .inl (.wait p hp hr ha)
  · exact .inr ⟨hr, a, ha, rfl⟩

/-- A micro-step that writes the clock: it waits, fails with IoError, or goes on. -/
theorem writeClock_cases {s t : State} {l : Level} {k : State → State} (hq : s.pos.prim = some (.writeLevel l))
    (hp : s.pos.phase = .reset ∨ s.pos.phase = .shutdown ∨ s.pos.phase = .shift ∨ s.pos.phase = .endpulse)
    (h : writeClock l k s = .next t) :
    Works s t ∨ s.ready = true ∧ ∃ v, s.answerTo (.writeLevel l) = some (.ok v) ∧
      t = k (primitive (.writeLevel l) s).2 := by
  obtain hw | ⟨hr, a, ha, rfl⟩ := issue_cases hq h
  · exact .inl hw
  · cases a with
    | ok v => exact .inr ⟨hr, v, ha, rfl⟩
    | fail c => exact .inl (.fail _ c (.inr hp) hq hr ha)

theorem execInit_cases {c d : PinId} {u t : State} (hp : u.pos.phase = .init) (h : execInit c d u = .next t) :
    Works u t := by
  unfold execInit at h
  split at h
  · next e => simp [e, Pos.phase] at hp
  · next e =>
    obtain hw | ⟨hr, a, ha, rfl⟩ := issue_cases (by rw [e]; rfl) h
    · exact hw
    · cases a with
      | ok v => exact .i0 v e hr ha
      | fail k => exact .initFail _ k hp (by rw [e]; rfl) hr ha
  · next e =>
    obtain hw | ⟨hr, a, ha, rfl⟩ := issue_cases (by rw [e]; rfl) h
    · exact hw
    · cases a with
      | ok v => exact .i1 v e hr ha
      | fail k => exact .initFail _ k hp (by rw [e]; rfl) hr ha
  · next n1 n2 n3 => cases e : u.pos <;> simp_all [Pos.phase]

theorem execReset_cases {u t : State} (hp : u.pos.phase = .reset) (h : execReset u = .next t) : Works u t := by
  unfold execReset at h
  split at h
  · next e => simp [e, Pos.phase] at hp
  · next e =>
    obtain hw | ⟨hr, v, ha, rfl⟩ := writeClock_cases (by rw [e]; rfl) (.inl hp) h
    · exact hw
    · exact .rs0 v e hr ha
  · next e =>
    obtain hw | ⟨hr, v, ha, rfl⟩ := writeClock_cases (by rw [e]; rfl) (.inl hp) h
    · exact hw
    · exact .rs1 v e hr ha
  · next e => injection h with h; subst h; exact .rs2 e
  · next e =>
    obtain hw | ⟨hr, v, ha, rfl⟩ := writeClock_cases (by rw [e]; rfl) (.inl hp) h
    · exact hw
    · exact .rs3 v e hr ha
  · next n1 n2 n3 n4 n5 => cases e : u.pos <;> simp_all [Pos.phase]

theorem execShutdown_cases {u t : State} (hp : u.pos.phase = .shutdown) (h : execShutdown u = .next t) :
    Works u t := by
  unfold execShutdown at h
  split at h
  · next e => simp [e, Pos.phase] at hp
  · next e =>
    obtain hw | ⟨hr, v, ha, rfl⟩ := writeClock_cases (by rw [e]; rfl) (.inr (.inl hp)) h
    · exact hw
    · exact .s0 v e hr ha
  · next n1 n2 => cases e : u.pos <;> simp_all [Pos.phase]

theorem readW5_cases {u t : State} (e : u.pos = .w5) (h : readW5 u = .next t) : Works u t := by
  unfold readW5 at h
  split at h
  · next hd =>
    obtain hw | ⟨hr, a, ha, rfl⟩ := issue_cases (by rw [e]; rfl) h
    · exact hw
    · cases a with
      | ok v => exact .w5Shift v e hd hr ha
      | fail k => exact .w5Disarm k e hd hr ha
  · next hd =>
    obtain hw | ⟨hr, a, ha, rfl⟩ := issue_cases (by rw [e]; rfl) h
    · exact hw
    · cases a with
      | ok v => exact .w5End _ v e (.inl ⟨hd, rfl⟩) hr ha
      | fail k => exact .w5EndFail _ k e (.inl ⟨hd, rfl⟩) hr ha
  · next hd =>
    obtain hw | ⟨hr, a, ha, rfl⟩ := issue_cases (by rw [e]; rfl) h
    · exact hw
    · cases a with
      | ok v => exact .w5End _ v e (.inr ⟨hd, rfl⟩) hr ha
      | fail k => exact .w5EndFail _ k e (.inr ⟨hd, rfl⟩) hr ha
  · cases h

theorem execRead_cases {u t : State} (hp : u.pos.phase.isRead = true) (h : execRead u = .next t) : Works u t := by
  unfold execRead at h
  split at h
  · next e => simp [e, Pos.phase, Phase.isRead] at hp
  · next e =>
    obtain hw | ⟨hr, a, ha, rfl⟩ := issue_cases (by rw [e]; rfl) h
    · exact hw
    · cases a with
      | ok v => exact .w0 v e hr ha
      | fail k => exact .fail _ k (.inl e) (by rw [e]; rfl) hr ha
  · next e =>
    obtain hw | ⟨hr, a, ha, rfl⟩ := issue_cases (by rw [e]; rfl) h
    · exact hw
    · cases a with
      | ok v => exact .w1 v e hr ha
      | fail k => exact .waitFail _ k (.inl e) (by rw [e]; rfl) hr ha
  · next e =>
    obtain hw | ⟨hr, a, ha, rfl⟩ := issue_cases (by rw [e]; rfl) h
    · exact hw
    · cases a with
      | ok v =>
        cases v with
        | false => exact .w2Low e hr ha
        | true => exact .w2High e hr ha
      | fail k => exact .waitFail _ k (.inr (.inl e)) (by rw [e]; rfl) hr ha
  · next e =>
    obtain hw | ⟨hr, a, ha, rfl⟩ := issue_cases (by rw [e]; rfl) h
    · exact hw
    · cases a with
      | ok v =>
        cases v with
        | false => simpa using Works.w3None e hr ha
        | true => exact .w3Edge e hr ha
      | fail k => exact .waitFail _ k (.inr (.inr e)) (by rw [e]; rfl) hr ha
  · next e =>
    injection h with h
    subst h
    unfold readW4
    split
    · next hn => exact .w4Last e hn
    · next hn => exact .w4More e hn
  · next e => exact readW5_cases e h
  · next e =>
    obtain hw | ⟨hr, v, ha, rfl⟩ := writeClock_cases (by rw [e]; rfl) (by simp [e, Pos.phase]) h
    · exact hw
    · unfold afterRise
      split
      · next h0 => exact .rise .b0 .b2 v e (by simp) (by simpa using h0) hr ha
      · next h0 => exact .rise .b0 .b1 v e (by simp) (by simpa using h0) hr ha
  · next e => injection h with h; subst h; exact .hold .b1 .b2 e (by simp)
  · next e =>
    obtain hw | ⟨hr, v, ha, rfl⟩ := writeClock_cases (by rw [e]; rfl) (by simp [e, Pos.phase]) h
    · exact hw
    · split
      · next h0 => exact .fall .b2 .b4 v e (by simp) (by simpa using h0) hr ha
      · next h0 => exact .fall .b2 .b3 v e (by simp) (by simpa using h0) hr ha
  · next e => injection h with h; subst h; exact .b3 e
  · next e =>
    obtain hw | ⟨hr, a, ha, rfl⟩ := issue_cases (by rw [e]; rfl) h
    · exact hw
    · cases a with
      | ok v =>
        have hw := Works.b4 v _ e rfl hr ha
        simp only [primitive_acc, primitive_bitcnt]
        exact hw
      | fail k => exact .fail _ k (by simp [e, Pos.phase]) (by rw [e]; rfl) hr ha
  · next e =>
    obtain hw | ⟨hr, v, ha, rfl⟩ := writeClock_cases (by rw [e]; rfl) (by simp [e, Pos.phase]) h
    · exact hw
    · unfold afterRise
      split
      · next h0 => exact .rise .e0 .e2 v e (by simp) (by simpa using h0) hr ha
      · next h0 => exact .rise .e0 .e1 v e (by simp) (by simpa using h0) hr ha
  · next e => injection h with h; subst h; exact .hold .e1 .e2 e (by simp)
  · next e =>
    obtain hw | ⟨hr, v, ha, rfl⟩ := writeClock_cases (by rw [e]; rfl) (by simp [e, Pos.phase]) h
    · exact hw
    · unfold afterEndFall
      split
      · next h0 => exact .countFall v e (by simpa using h0) hr ha
      · next h0 => exact .fall .e2 .e3 v e (by simp) (by simpa using h0) hr ha
  · next e => injection h with h; subst h; exact .count e
  · next n1 n2 n3 n4 n5 n6 n7 n8 n9 n10 n11 n12 n13 n14 n15 n16 =>
    cases e : u.pos <;> simp_all [Pos.phase, Phase.isRead]

/-- Everything a micro-step of the command in progress can do. -/
theorem exec_running_cases {i : Instr} {u t : State} (hi : u.running = some i) (h : exec i u = .next t) :
    Works u t := by
  unfold State.running State.phase at hi
  split at hi
  · cases hi
  · next e => injection hi with hi; subst hi; exact execInit_cases e h
  · next e => injection hi with hi; subst hi; exact execReset_cases e h
  · next e => injection hi with hi; subst hi; exact execShutdown_cases e h
  all_goals next e => injection hi with hi; subst hi; exact execRead_cases (by rw [e]; rfl) h

@[simp] theorem running_eq_none (s : State) : s.running = none ↔ s.pos = .idle := by
  unfold State.running State.phase
  cases s.pos <;> simp [Pos.phase]

@[simp] theorem tick_running (s : State) : (tick s).running = s.running := rfl

@[simp] theorem phase_eq (s : State) : s.phase = s.pos.phase := rfl

@[simp] theorem phase_idle (p : Pos) : p.phase = .idle ↔ p = .idle := by cases p <;> simp [Pos.phase]

/-- Everything a step can do (00_scope.md R11): hardware reset, an idle micro-step, or a micro-step of the command in
progress. -/
theorem step_cases {s t : State} (h : step s = .next t) :
    (s.inReset = true ∧ t = hardReset (tick s)) ∨
    (s.inReset = false ∧ s.pos = .idle ∧
      Accepts s.cmds.head?.join (taken s) t) ∨
    (s.inReset = false ∧ s.pos ≠ .idle ∧ Works (tick s) t) := by
  unfold step at h
  split at h
  · next hr => injection h with h; exact .inl ⟨hr, h.symm⟩
  · next hr =>
    have hr : s.inReset = false := by simpa using hr
    split at h
    · next i hi =>
      refine .inr (.inr ⟨hr, ?_, exec_running_cases (by simpa using hi) h⟩)
      intro hp
      rw [(running_eq_none s).mpr hp] at hi
      cases hi
    · next hi =>
      have hp := (running_eq_none s).mp hi
      obtain ⟨c, hc, ha⟩ := stepIdle_cases (s := tick s) hp h
      rw [offered_eq] at hc ha
      refine .inr (.inl ⟨hr, hp, ?_⟩)
      have : (tick s).cmds.tail = c := congrArg State.cmds hc
      rw [← this] at ha
      exact ha

/-! ### Runs -/

theorem run_next (M : Host.Core) {s t : M.State} (h : M.step s = .next t) (n : Nat) :
    M.run (n + 1) s = M.run n t := by
  simp [Host.Core.run, h]

theorem run_congr (M : Host.Core) {s u : M.State} (h : M.step s = M.step u) (n : Nat) :
    M.run (n + 1) s = M.run (n + 1) u := by
  simp [Host.Core.run, h]

theorem run_add (M : Host.Core) {s t : M.State} (m n : Nat) (h : M.run m s = .next t) :
    M.run (m + n) s = M.run n t := by
  induction m generalizing s with
  | zero => injection h with h; rw [h, Nat.zero_add]
  | succ m ih =>
    rw [Nat.succ_add]
    simp only [Host.Core.run] at h ⊢
    cases hs : M.step s with
    | next v => rw [hs] at h; exact ih h
    | fault r => rw [hs] at h; cases h
    | refused r => rw [hs] at h; cases h

theorem core_run_zero (s : State) : Sys2Proof.core.run 0 s = .next s := rfl

theorem core_run_next {s t : State} (h : step s = .next t) (n : Nat) :
    Sys2Proof.core.run (n + 1) s = Sys2Proof.core.run n t := run_next core h n

theorem core_run_congr {s u : State} (h : step s = step u) (n : Nat) :
    Sys2Proof.core.run (n + 1) s = Sys2Proof.core.run (n + 1) u := run_congr core h n

theorem core_run_add {s t : State} (m n : Nat) (h : Sys2Proof.core.run m s = .next t) :
    Sys2Proof.core.run (m + n) s = Sys2Proof.core.run n t := run_add core m n h

end Sys2Proof.Machine
end

