-- ==== Sys2Proof/Laws/Decode.lean ====
section
/-! SUPPORT. The fields of a command word and what the decoder and the encoder do with them. -/

namespace Sys2Proof

/-- Taking a word apart undoes putting it together. -/
@[simp] theorem Fields.ofWord_toWord (f : Fields) : Fields.ofWord f.toWord = f := by
  obtain ⟨op, n, z0, c, d, z1⟩ := f
  simp only [Fields.ofWord, Fields.toWord, Fields.mk.injEq]
  refine ⟨?_, ?_, ?_, ?_, ?_, ?_⟩ <;>
  · apply BitVec.eq_of_getLsbD_eq
    intro i hi
    simp only [BitVec.getLsbD_extractLsb', BitVec.getLsbD_append]
    repeat rw [if_neg (by omega)]
    first
      | (rw [if_pos (by omega)]; simp [hi])
      | simp [hi]
    all_goals (try (congr 1; simp only; omega))

/-- Putting a word together undoes taking it apart: the fields are all of the word (30_encoding.md R91). -/
@[simp] theorem Fields.toWord_ofWord (w : Word) : (Fields.ofWord w).toWord = w := by
  simp only [Fields.ofWord, Fields.toWord]
  apply BitVec.eq_of_getLsbD_eq
  intro i hi
  simp only [BitVec.getLsbD_extractLsb', BitVec.getLsbD_append]
  have key : ∀ (j k m : Nat), j < m → k + j = i → (decide (j < m) && BitVec.getLsbD w (k + j)) = w.getLsbD i := by
    rintro j k m h rfl
    simp [h]
  repeat (split; rotate_left)
  all_goals (apply key <;> omega)

/-- A command is what its own fields say. -/
theorem Instr.fields_instr (i : Instr) : i.fields.illegal? = none ∧ i.fields.instr = .ok i := by
  cases i <;> simp [Instr.fields, Fields.illegal?, Fields.instr]

/-- Every command is well-formed (30_encoding.md R92): its operand types carry the ranges. -/
theorem Instr.wellFormed_all (i : Instr) : i.wellFormed = true := by
  simp [Instr.wellFormed, Fields.wellFormed, (Instr.fields_instr i).1]

/-- What the decoder answers, by the fields. -/
theorem decode_eq (w : Word) :
    decode w = match (Fields.ofWord w).illegal? with
      | some e => .error e
      | none => (Fields.ofWord w).instr := rfl

/-- Fields that pass the checks are those of the command they decode to. -/
theorem Fields.instr_fields {f : Fields} {i : Instr} (h : f.illegal? = none) (hi : f.instr = .ok i) :
    i.fields = f := by
  obtain ⟨op, n, z0, c, d, z1⟩ := f
  unfold Fields.illegal? at h
  unfold Fields.instr at hi
  simp only at h hi
  repeat (split at h <;> first | cases h | skip)
  repeat' split at hi
  all_goals first
    | (injection hi with hi; subst hi; simp_all [Instr.fields])
    | cases hi

end Sys2Proof
end

