-- ==== Sys2Proof/Laws/PerInstr.lean ====
section
/-! SUPPORT. Statements made for all commands, one lemma per constructor. -/

namespace Sys2Proof.Laws.EncodedWord

/-- The word of a command is well-formed and it has a row in the table (30_encoding.md R93, R98). -/
def Statement (i : Instr) : Prop :=
  i.wellFormed = true ∧ Fields.ofWord (encode i) = i.fields ∧ ∃ r ∈ opcodeRows, r.mnemonic = i.mnemonic

theorem init (c d : PinId) : Statement (.init c d) :=
  ⟨Instr.wellFormed_all _, Fields.ofWord_toWord _, ⟨"INIT", 0x00000001, 0xFF0000FF⟩, by decide, rfl⟩

theorem reset : Statement .reset :=
  ⟨Instr.wellFormed_all _, Fields.ofWord_toWord _, ⟨"RESET", 0x00000002, 0xFFFFFFFF⟩, by decide, rfl⟩

theorem shutdown : Statement .shutdown :=
  ⟨Instr.wellFormed_all _, Fields.ofWord_toWord _, ⟨"SHUTDOWN", 0x00000003, 0xFFFFFFFF⟩, by decide, rfl⟩

theorem read : Statement .read :=
  ⟨Instr.wellFormed_all _, Fields.ofWord_toWord _, ⟨"READ", 0x00000004, 0xFFFFFFFF⟩, by decide, rfl⟩

theorem setgain (n : BitVec 2) : Statement (.setgain n) :=
  ⟨Instr.wellFormed_all _, Fields.ofWord_toWord _, ⟨"SETGAIN", 0x00000005, 0xFFFFFFE7⟩, by decide, rfl⟩

end Sys2Proof.Laws.EncodedWord
end

