-- ==== Sys2Proof/Laws/Trace.lean ====
section
/-! SUPPORT. The trace functions of Safety.lean, event by event. -/

namespace Sys2Proof.Machine

@[simp] theorem commandTrace_prim (p : Prim) (x : PinId) (a : Answer) (l : List Obs) :
    commandTrace (.prim p x a :: l) = .prim p x a :: commandTrace l := rfl
@[simp] theorem commandTrace_delay (t : Nat) (l : List Obs) :
    commandTrace (.delay t :: l) = .delay t :: commandTrace l := rfl
@[simp] theorem commandTrace_response (r : Response) (l : List Obs) : commandTrace (.response r :: l) = [] := rfl
@[simp] theorem commandTrace_hardReset (l : List Obs) : commandTrace (.hardReset :: l) = [] := rfl

@[simp] theorem levelsIn_nil : levelsIn [] = [] := rfl
@[simp] theorem levelsIn_append (l m : List Obs) : levelsIn (l ++ m) = levelsIn l ++ levelsIn m :=
  List.filterMap_append
@[simp] theorem levelsIn_read (x : PinId) (v : Bool) (l : List Obs) :
    levelsIn (.prim .readLevel x (.ok v) :: l) = levelOf v :: levelsIn l := rfl
@[simp] theorem levelsIn_fail (p : Prim) (x : PinId) (c : Cause) (l : List Obs) :
    levelsIn (.prim p x (.fail c) :: l) = levelsIn l := by cases p <;> rfl
@[simp] theorem levelsIn_delay (t : Nat) (l : List Obs) : levelsIn (.delay t :: l) = levelsIn l := rfl
@[simp] theorem levelsIn_write (v : Level) (x : PinId) (a : Answer) (l : List Obs) :
    levelsIn (.prim (.writeLevel v) x a :: l) = levelsIn l := rfl
@[simp] theorem levelsIn_poll (x : PinId) (a : Answer) (l : List Obs) :
    levelsIn (.prim .edgeWasDetected x a :: l) = levelsIn l := rfl
@[simp] theorem levelsIn_arm (x : PinId) (a : Answer) (l : List Obs) :
    levelsIn (.prim .armFallingEdge x a :: l) = levelsIn l := rfl
@[simp] theorem levelsIn_disarm (x : PinId) (a : Answer) (l : List Obs) :
    levelsIn (.prim .disarmEdge x a :: l) = levelsIn l := rfl

@[simp] theorem isRise_high (x : PinId) (v : Bool) : (Obs.prim (.writeLevel .high) x (.ok v)).isRise = true := rfl
@[simp] theorem isRise_low (x : PinId) (a : Answer) : (Obs.prim (.writeLevel .low) x a).isRise = false := rfl
@[simp] theorem isRise_fail (p : Prim) (x : PinId) (c : Cause) : (Obs.prim p x (.fail c)).isRise = false := by
  unfold Obs.isRise; split <;> simp_all
@[simp] theorem isRise_other (p : Prim) (x : PinId) (a : Answer) (h : p ≠ .writeLevel .high) :
    (Obs.prim p x a).isRise = false := by unfold Obs.isRise; split <;> simp_all
@[simp] theorem isRise_delay (t : Nat) : (Obs.delay t).isRise = false := rfl

@[simp] theorem isFall_low (x : PinId) (v : Bool) : (Obs.prim (.writeLevel .low) x (.ok v)).isFall = true := rfl
@[simp] theorem isFall_high (x : PinId) (a : Answer) : (Obs.prim (.writeLevel .high) x a).isFall = false := rfl
@[simp] theorem isFall_fail (p : Prim) (x : PinId) (c : Cause) : (Obs.prim p x (.fail c)).isFall = false := by
  unfold Obs.isFall; split <;> simp_all
@[simp] theorem isFall_other (p : Prim) (x : PinId) (a : Answer) (h : p ≠ .writeLevel .low) :
    (Obs.prim p x a).isFall = false := by unfold Obs.isFall; split <;> simp_all
@[simp] theorem isFall_delay (t : Nat) : (Obs.delay t).isFall = false := rfl

@[simp] theorem isFruitlessPoll_poll (x : PinId) (v : Bool) :
    (Obs.prim .edgeWasDetected x (.ok v)).isFruitlessPoll = !v := rfl
@[simp] theorem isFruitlessPoll_other (p : Prim) (x : PinId) (a : Answer) (h : p ≠ .edgeWasDetected) :
    (Obs.prim p x a).isFruitlessPoll = false := by unfold Obs.isFruitlessPoll; split <;> simp_all
@[simp] theorem isFruitlessPoll_fail (p : Prim) (x : PinId) (c : Cause) :
    (Obs.prim p x (.fail c)).isFruitlessPoll = false := by unfold Obs.isFruitlessPoll; split <;> simp_all
@[simp] theorem isFruitlessPoll_delay (t : Nat) : (Obs.delay t).isFruitlessPoll = false := rfl

@[simp] theorem isDelay_prim (t : Nat) (p : Prim) (x : PinId) (a : Answer) : (Obs.prim p x a).isDelay t = false := rfl
@[simp] theorem isDelay_delay (t u : Nat) : (Obs.delay u).isDelay t = decide (u = t) := rfl

@[simp] theorem shiftAll_nil : shiftAll [] = 0 := rfl
@[simp] theorem shiftAll_snoc (ls : List Level) (l : Level) : shiftAll (ls ++ [l]) = shiftIn (shiftAll ls) l := by
  simp [shiftAll]

end Sys2Proof.Machine
end

