-- ==== Sys2Proof/Tests/Slice0.lean ====
section
/-! SUPPORT. Small tests, with expected values from the spec's own tables and vectors, and a concrete input that meets
the hypotheses of each obligation. -/

namespace Sys2Proof.Machine.Tests

/-! ### Small parameters -/

/-- One polling attempt, 1 MHz, `t_out` = 1 µs, pins 5 and 6 valid, prefix label `P`. -/
def smallParams : Params where
  ticksPerMicro := 1
  pollAttempts := 1
  tPoll := 3
  tResetHold := 70
  tHigh := 1
  tLow := 1
  highSlack := 5
  tOut := 1
  clkCycles := 1
  clkMicros := 1
  resultW := 32
  pinIdW := 8
  causeW := 8
  pinMask := 0x60
  pinPrefix := ['P']

/-! ### Checks on fields and text operands (30_encoding.md R98, R107) -/

theorem test_reserved_op_refused : (Fields.mk 0 0 0 0 0 0).illegal? = some .reservedOp ∧
    (Fields.mk 6 0 0 0 0 0).illegal? = some .reservedOp ∧ (Fields.mk 7 0 0 0 0 0).illegal? = some .reservedOp := by decide

theorem test_nonzero_z_refused : (Fields.mk 4 0 1 0 0 0).illegal? = some .nonzeroZ ∧
    (Fields.mk 4 0 0 0 0 0x80).illegal? = some .nonzeroZ := by decide

theorem test_nonzero_n_refused : (Fields.mk 1 1 0 5 6 0).illegal? = some .nonzeroN := by decide

theorem test_nonzero_pin_refused : (Fields.mk 2 0 0 1 0 0).illegal? = some .nonzeroPin ∧
    (Fields.mk 5 1 0 0 1 0).illegal? = some .nonzeroPin := by decide

theorem test_ill_formed_fields : (Fields.mk 0 0 0 0 0 0).wellFormed = false ∧
    (Fields.mk 4 0 1 0 0 0).wellFormed = false ∧ (Fields.mk 1 1 0 5 6 0).wellFormed = false ∧
    (Fields.mk 2 0 0 1 0 0).wellFormed = false ∧ (Fields.mk 1 0 0 255 255 0).wellFormed = true := by decide

theorem test_ill_formed_text : (Asm.init 256 6).wellFormed smallParams = false ∧
    (Asm.init 5 256).wellFormed smallParams = false ∧ (Asm.setgain 4).wellFormed smallParams = false ∧
    (Asm.init 255 255).wellFormed smallParams = true ∧ (Asm.setgain 3).wellFormed smallParams = true ∧
    (Asm.init 16 5).wellFormed { smallParams with pinIdW := 4 } = false := by
  decide

/-- 00_scope.md R6: each constraint refuses a value just outside it. -/
theorem test_ill_formed_params : smallParams.wf = true ∧ ({ smallParams with tResetHold := 60 }).wf = false ∧
    ({ smallParams with highSlack := 59 }).wf = false ∧ ({ smallParams with highSlack := 0 }).wf = false ∧
    ({ smallParams with tHigh := 59, highSlack := 0 }).wf = false ∧ ({ smallParams with clkMicros := 2 }).wf = false ∧
    ({ smallParams with resultW := 23 }).wf = false ∧ ({ smallParams with pinIdW := 9 }).wf = false ∧
    ({ smallParams with causeW := 0 }).wf = false ∧ ({ smallParams with pollAttempts := 0 }).wf = false := by decide

/-! ### Decoding (words bit by bit from 30_encoding.md R91, R93: z1, dpin, cpin, z0, n, op) -/

theorem test_decode_init :
    decode 0b00000000_00000110_00000101_000_00_001 = .ok (.init 5 6) := rfl

theorem test_decode_reset : decode 0b00000000_00000000_00000000_000_00_010 = .ok .reset := rfl

theorem test_decode_shutdown : decode 0b00000000_00000000_00000000_000_00_011 = .ok .shutdown := rfl

theorem test_decode_read : decode 0b00000000_00000000_00000000_000_00_100 = .ok .read := rfl

theorem test_decode_setgain : decode 0b00000000_00000000_00000000_000_11_101 = .ok (.setgain 3) := rfl

/-- Vectors V48, V50 to V57. -/
theorem test_decode_illegal : decode 0x00000000 = .error .reservedOp ∧ decode 0x00000006 = .error .reservedOp ∧
    decode 0x00000007 = .error .reservedOp ∧ decode 0x00060509 = .error .nonzeroN ∧
    decode 0x00000102 = .error .nonzeroPin ∧ decode 0x0000000C = .error .nonzeroN ∧
    decode 0x00000024 = .error .nonzeroZ ∧ decode 0x80000004 = .error .nonzeroZ ∧
    decode 0x0000010D = .error .nonzeroPin := ⟨rfl, rfl, rfl, rfl, rfl, rfl, rfl, rfl, rfl⟩

theorem test_table_word : decodeTableWord 32 0x00060501 = some (.init 5 6) ∧ decodeTableWord 32 0x15 = some (.setgain 2) ∧
    decodeTableWord 32 0 = none := by decide

/-- 30_encoding.md R106, R108. -/
theorem test_assemble : (Asm.init 5 6).assemble smallParams = some [0x00060501] ∧
    Asm.selectA64.assemble smallParams = some [0x0000001D] ∧ Asm.recover.assemble smallParams = some [2, 4] := by decide

/-- 30_encoding.md R107: with the label and without it, hexadecimal (log 27), and an operand that is no number. -/
theorem test_pin_text : initLine smallParams ['P', '5'] ['6'] = some [0x00060501] ∧
    initLine smallParams ['0', 'x', '0', '5'] ['P', '6'] = some [0x00060501] ∧
    initLine smallParams ['P', '0', 'x', '5'] ['6'] = some [0x00060501] ∧
    initLine smallParams ['P'] ['6'] = none ∧ initLine smallParams ['Q', '5'] ['6'] = none ∧
    initLine smallParams ['5'] ['2', '5', '6'] = none := by decide

/-- A narrow and a wide build, with operands at the ends of their ranges (00_scope.md R6), and a pin operand without the
label. -/
theorem witness_TextFormsAssemble : smallParams.wf = true ∧
    ({ smallParams with ticksPerMicro := 2, tResetHold := 140, clkCycles := 2, resultW := 64, pinIdW := 1, causeW := 1 }).wf ∧
    255 < 2 ^ smallParams.pinIdW ∧ 2 ^ smallParams.pinIdW ≤ 256 ∧ ¬ smallParams.pinPrefix <+: ['6'] := by decide

/-! ### Small states -/

/-- After reset, `abstract` binding, everything known of the pins. -/
def fresh : State := State.resetWith smallParams (.abstr ⟨.low, .clear⟩)

/-- After `INIT 5, 6`. -/
def live : State := { fresh with cpin := 5, dpin := 6, initialised := true, done := true }

/-- `live` with a word offered. -/
def offering (w : Word) : State := { live with cmds := [some w] }

/-- A command in progress at `p`, with the coming answers. -/
def busyAt (p : Pos) (replies : List (Option Answer)) : State :=
  { live with pos := p, busy := true, done := false, replies := replies }

/-- The same with a decision taken. -/
def pending (d : Pend) (replies : List (Option Answer)) : State := { busyAt .w5 replies with pend := d }

/-- A `reference` pin layer with its output on and `dout` Low. -/
def quietPins : ReferencePins := ⟨false, true, false, false, false, false, false⟩

/-- What holds of the state a step ends in, if it ends in one. -/
def after {α : Type} (o : Out) (f : State → α) : Option α :=
  match o with
  | .next t => some (f t)
  | .fault _ | .refused _ => none

/-! ### One step of each command (95_test_vectors.md part 2) -/

/-- V16, V64: the identifiers are latched, nothing is issued yet; `STATUS` during INIT is 0x101 (V77). -/
theorem test_init_accept : after (step { fresh with cmds := [some 0x00060501] })
    (fun t => (t.pos, t.statusWord, t.cfgWord, t.log)) = some (.i0, 0x101, 0x00060501, []) := by decide

/-- V18: the data identifier does not resolve. -/
theorem test_init_bad_data_pin : after (step { fresh with cmds := [some 0x00C80501] })
    (fun t => (t.statusWord, t.cfgWord, t.iocauseWord)) = some (0x006, 0x00000001, 0x0008) := by decide

/-- V20: the hold of 70 µs between the two writes. -/
theorem test_reset_hold : after (step (busyAt .rs2 []))
    (fun t => (t.pos, t.log)) = some (.rs3, [.delay 70]) := by decide

/-- V23: the last write fails. -/
theorem test_reset_last_write_fails : after (step (busyAt .rs3 [some (.fail 7)]))
    (fun t => (t.statusWord, t.iocauseWord, t.clkLvl)) = some (0x04A, 0x0703, .unknown) := by decide

/-- V24. -/
theorem test_shutdown_high : after (step (busyAt .s0 [some (.ok false)]))
    (fun t => (t.statusWord, t.clkLvl, t.rspValid)) = some (0x042, .high, true) := by decide

/-- V60. -/
theorem test_shutdown_uninitialised : after (step { fresh with cmds := [some 3] })
    (fun t => (t.statusWord, t.iocauseWord)) = some (0x016, 0) := by decide

/-- V7 at step `B4`: `ACC` = 0xABCDEF, a Low sample. -/
theorem test_read_sample : after (step { busyAt .b4 [some (.ok false)] with acc := 0xABCDEF, bitcnt := 22 })
    (fun t => (t.pos, t.acc, t.bitcnt)) = some (.b0, 0x579BDE, 23) := by decide

/-- V11 at step `E3`: `RESULT` is the sign extension of `ACC`; `STATUS` is 0x062. -/
theorem test_read_done : after (step { busyAt .e3 [] with acc := 0x800000, bitcnt := 24 })
    (fun t => (t.hostRead 1, t.statusWord)) = some (.word 0xFF800000, 0x062) := by decide

/-- V27. -/
theorem test_setgain_two : after (step (offering 0x15)) (fun t => (t.statusWord, t.cfgWord)) =
    some (0x042, 0x00060502) := by decide

/-- V47. -/
theorem test_setgain_zero : after (step (offering 0x05)) (fun t => (t.statusWord, t.cfgWord)) =
    some (0x046, 0x00060501) := by decide

/-- V49. -/
theorem test_illegal_word : after (step (offering 0)) (fun t => (t.statusWord, t.log)) =
    some (0x052, [.response ⟨.illegalCommand, false, .zero 32⟩]) := by decide

/-- 41_lifecycle.md R152(e): every later command is outside the spec, SETGAIN and INIT too. -/
theorem test_shared_pins : step { offering 0x15 with dpin := 5 } = .refused .sharedPins ∧
    step { offering 0x00060501 with dpin := 5 } = .refused .sharedPins := ⟨rfl, rfl⟩

/-- V65: a failed disarm after a timeout. -/
theorem test_cleanup_failure : after (step (pending .timeout [some (.fail 2)]))
    (fun t => (t.statusWord, t.iocauseWord)) = some (0x0CE, 0) := by decide

/-- The word placed by `withFetchWord` is the one accepted. -/
theorem test_fetch_word : after (step (State.reset.withFetchWord 32 4)) (fun t => t.statusWord) = some 0x016 := by
  decide

/-- V1 to V7, V8 to V15; 40_primitives.md R131 at three result widths. -/
theorem test_arithmetic : shiftIn 0x400000 .high = 0x800001 ∧ shiftIn 0x800000 .low = 0 ∧
    signExtend smallParams 0x7FFFFF = .word 0x007FFFFF ∧ signExtend smallParams 0x800001 = .word 0xFF800001 ∧
    signExtend { smallParams with resultW := 64 } 0x800000 = ⟨64, 0xFFFFFFFFFF800000⟩ ∧
    signExtend { smallParams with resultW := 24 } 0x800000 = ⟨24, 0x800000⟩ := by decide

/-- 70_reset_and_hazards.md R281: `ceil(t × F_CLK)`, here 0.75 MHz, and half a microsecond at 3 MHz. -/
theorem test_delay_cycles : delayCycles { smallParams with clkCycles := 3, clkMicros := 4 } 1 = 1 ∧
    delayCycles { smallParams with clkCycles := 3, clkMicros := 4 } 4 = 3 ∧
    delayCycles { smallParams with clkCycles := 3, clkMicros := 4 } 70 = 53 ∧
    delayCycles { smallParams with ticksPerMicro := 2, clkCycles := 3 } 1 = 2 := by decide

/-! ### Hypotheses met: states of the invariants -/

theorem inv_live : Inv live := by constructor <;> decide

theorem inv_fresh : Inv fresh := by constructor <;> decide

theorem inv_offering : Inv (offering 4) := by constructor <;> decide

theorem inv_shift : Inv (busyAt .b3 []) := by constructor <;> decide

theorem inv_sample : Inv { busyAt .b4 [some (.ok true)] with bitcnt := 23 } := by constructor <;> decide

theorem inv_last_pulse : Inv { busyAt .e3 [] with bitcnt := 24 } := by constructor <;> decide

theorem inv_disarm_failed : Inv (pending .ready [some (.fail 2)]) := by constructor <;> decide

theorem inv_timeout : Inv { pending .timeout [some (.fail 2)] with pollcnt := 1 } := by constructor <;> decide

/-- The clock is Low and the arming off at `B3`, and a step follows. -/
theorem witness_ClockLevelKept : Inv (busyAt .b3 []) ∧ ClockInv (busyAt .b3 []) ∧ ∃ t, step (busyAt .b3 []) = .next t :=
  ⟨inv_shift, ⟨by decide, by decide, by intro _ r h; cases h⟩, _, rfl⟩

theorem witness_EdgeArmingKept : Inv (busyAt .b3 []) ∧ ArmInv (busyAt .b3 []) ∧ ∃ t, step (busyAt .b3 []) = .next t :=
  ⟨inv_shift, ⟨by decide, by decide⟩, _, rfl⟩

/-- READ's trace up to the disarm of the fast path. -/
def fastPathLog : List Obs :=
  [.prim .readLevel 6 (.ok false), .prim (.writeLevel .low) 5 (.ok false), .prim .armFallingEdge 6 (.ok false)]

/-- At `W5` after the fast path. -/
def atDisarm : State := { pending .ready [some (.ok false)] with log := fastPathLog, pins := .abstr ⟨.low, .set⟩ }

theorem witness_TraceAgreesWithPosition : Inv atDisarm ∧ TraceInv atDisarm ∧ ∃ t, step atDisarm = .next t :=
  ⟨by constructor <;> decide,
    ⟨by decide, by decide, by decide, by decide, by decide, by decide, by decide, fun h => absurd h (by decide)⟩,
    _, rfl⟩

theorem witness_InvariantKept : Inv (offering 4) ∧ ∃ t, step (offering 4) = .next t := ⟨inv_offering, _, rfl⟩

/-- At `W5` after the one fruitless attempt of `smallParams`. -/
def atTimeout : State :=
  { pending .timeout [some (.ok false)] with
    pollcnt := 1
    pins := .abstr ⟨.low, .set⟩
    log := [.delay 3, .prim .edgeWasDetected 6 (.ok false), .prim .readLevel 6 (.ok true),
      .prim (.writeLevel .low) 5 (.ok false), .prim .armFallingEdge 6 (.ok false)] }

/-- A READ that ends, in TimeoutError. -/
theorem witness_ReadPulseCount : Inv atTimeout ∧ TraceInv atTimeout ∧ atTimeout.inReset = false ∧
    atTimeout.phase.isRead = true ∧ after (step atTimeout) (fun t => (t.pos, t.code)) = some (.idle, .timeoutError) :=
  ⟨by constructor <;> decide,
    ⟨by decide, by decide, by decide, by decide, by decide, by decide, by decide, fun h => absurd h (by decide)⟩,
    by decide, by decide, by decide⟩

/-- The trace of one data pulse with its sample, newest event first. -/
def bitLog (b : Bool) : List Obs :=
  [.prim .readLevel 6 (.ok b), .delay 1, .prim (.writeLevel .low) 5 (.ok false), .delay 1,
    .prim (.writeLevel .high) 5 (.ok false)]

/-- At the last `E3`, after 24 High levels. -/
def atLastPulse : State :=
  { busyAt .e3 [] with
    acc := 0xFFFFFF
    bitcnt := 24
    log := [.prim (.writeLevel .low) 5 (.ok false), .delay 1, .prim (.writeLevel .high) 5 (.ok false)] ++
      (List.replicate 24 (bitLog true)).flatten ++ .prim .disarmEdge 6 (.ok false) :: fastPathLog }

/-- A READ that ends Ok. -/
theorem witness_ReadIsAllOrNothing : Inv atLastPulse ∧ TraceInv atLastPulse ∧ atLastPulse.inReset = false ∧
    atLastPulse.phase.isRead = true ∧
    after (step atLastPulse) (fun t => (t.pos, t.code, t.result)) = some (.idle, .ok, .word 0xFFFFFFFF) :=
  ⟨by constructor <;> decide,
    ⟨by decide, by decide, by decide, by decide, by decide, by decide, by decide,
      fun _ => ⟨.low, List.replicate 24 .high, by decide, by decide, by decide⟩⟩,
    by decide, by decide, by decide⟩

theorem witness_NoStepStopsTheMachine : Inv live ∧ live.ready = true ∧ live.initialised = true ∧ live.cpin ≠ live.dpin :=
  ⟨inv_live, by decide, by decide, by decide⟩

/-! ### Hypotheses met: encoding and the step -/

theorem witness_EncodeDecodeIdentity : decode 0x00FFFF01 = .ok (.init 255 255) := rfl

theorem witness_DecodeFollowsTheTable : (∀ r ∈ opcodeRows, r.pattern &&& r.mask = r.pattern) ∧
    decode 0x00FFFF01 = .ok (.init 255 255) ∧ decode 0x0000001D = .ok (.setgain 3) := ⟨by decide, rfl, rfl⟩

theorem witness_IllegalWords : (offering 7).cmdReady = true ∧ (offering 7).cmds = [some 7] ∧
    decode 7 = .error .reservedOp := ⟨by decide, rfl, rfl⟩

theorem witness_StepRunsTheOfferedCommand : (offering 4).cmdReady = true ∧ (offering 4).cmds = [some 4] ∧
    decode 4 = .ok .read := ⟨by decide, rfl, rfl⟩

theorem witness_StepContinuesTheCommand : (busyAt .e3 []).inReset = false ∧ (busyAt .e3 []).running = some .read ∧
    (busyAt .i1 []).running = some (.init 5 6) ∧ (busyAt .rs0 []).running = some .reset ∧
    (busyAt .s0 []).running = some .shutdown := by decide

theorem witness_BusyAcceptsNothing : (busyAt .b3 []).phase ≠ .idle ∧ ∃ t, step (busyAt .b3 []) = .next t :=
  ⟨by decide, _, rfl⟩

theorem witness_IdleWaitsForACommand : live.cmdReady = true ∧ live.cmds = [] ∧
    ({ live with cmds := [none, some 4] }).cmdReady = true := by decide

theorem witness_HardResetClearsTheController : ({ live with rstn := [false] }).inReset = true ∧
    ({ live with rstn := [false], pins := .ref quietPins }).inReset = true := by decide

/-! ### Hypotheses met: the lifecycle commands -/

theorem witness_NotInitialisedRefusals : fresh.pos = .idle ∧ fresh.initialised = false := by decide

theorem witness_InitAcceptance : fresh.pos = .idle ∧ fresh.ready = true ∧ fresh.initialised = false ∧
    live.initialised = true ∧ live.cpin ≠ live.dpin ∧ pinValid fresh.params 5 = true ∧
    pinValid fresh.params 6 = true ∧ pinValid fresh.params 0 = false ∧ pinValid fresh.params 255 = false := by decide

/-- INIT in progress. -/
def initAt (p : Pos) (a : Answer) : State := { busyAt p [some a] with initialised := false }

theorem witness_InitMicroProgram : (initAt .i0 (.ok false)).ready = true ∧ (initAt .i0 (.ok false)).pend = .none ∧
    (initAt .i0 (.ok false)).cleanupFail = false ∧ (initAt .i0 (.ok false)).pos = .i0 ∧
    (initAt .i0 (.ok false)).answerTo .configureInput = some (.ok false) ∧
    (initAt .i1 (.ok false)).answerTo .configureOutput = some (.ok false) ∧
    (initAt .i0 (.fail 255)).answerTo .configureInput = some (.fail 255) ∧
    (initAt .i1 (.fail 0)).answerTo .configureOutput = some (.fail 0) ∧
    ({ initAt .i1 (.ok false) with pins := .ref quietPins, dout := [true] }).answerTo .configureOutput =
      some (.ok false) := by decide

theorem witness_ResetMicroProgram : live.ready = true ∧ live.pos = .idle ∧ live.initialised = true ∧
    live.cpin ≠ live.dpin ∧ (busyAt .rs0 [some (.ok false)]).answerTo (.writeLevel .low) = some (.ok false) ∧
    (busyAt .rs1 [some (.ok false)]).answerTo (.writeLevel .high) = some (.ok false) ∧ (busyAt .rs2 []).pos = .rs2 ∧
    (busyAt .rs3 [some (.ok false)]).answerTo (.writeLevel .low) = some (.ok false) := by decide

theorem witness_drives : (busyAt .rs0 []).drives ∧ ({ busyAt .rs0 [] with pins := .ref quietPins }).drives :=
  ⟨(fun _ h => nomatch h), (fun _ h => by injection h with h; subst h; rfl)⟩

theorem witness_ShutdownMicroProgram : live.ready = true ∧ live.pos = .idle ∧ live.initialised = true ∧
    live.cpin ≠ live.dpin ∧ (busyAt .s0 [some (.ok false)]).answerTo (.writeLevel .high) = some (.ok false) := by decide

theorem witness_SetgainWritesTheSelector : live.pos = .idle ∧ live.initialised = true ∧ live.cpin ≠ live.dpin := by
  decide

/-! ### Hypotheses met: READ -/

theorem witness_ReadAcceptance : live.pos = .idle ∧ live.initialised = true ∧ live.ready = true ∧
    live.cpin ≠ live.dpin := by decide

theorem witness_ReadArmsThenLowersTheClock : (busyAt .w0 []).ready = true ∧ (busyAt .w0 []).pend = .none ∧
    (busyAt .w0 [some (.ok false)]).answerTo .armFallingEdge = some (.ok false) ∧
    (busyAt .w0 [some (.fail 1)]).answerTo .armFallingEdge = some (.fail 1) ∧
    (busyAt .w1 [some (.ok false)]).answerTo (.writeLevel .low) = some (.ok false) ∧
    (busyAt .w1 [some (.fail 7)]).answerTo (.writeLevel .low) = some (.fail 7) := by decide

theorem witness_ReadSamplesOnceBeforePolling : (busyAt .w2 []).ready = true ∧ (busyAt .w2 []).pend = .none ∧
    (busyAt .w2 []).pos = .w2 ∧ (busyAt .w2 [some (.ok false)]).answerTo .readLevel = some (.ok false) ∧
    (busyAt .w2 [some (.ok true)]).answerTo .readLevel = some (.ok true) ∧
    (busyAt .w2 [some (.fail 9)]).answerTo .readLevel = some (.fail 9) := by decide

theorem witness_ReadPollsThenDelays : (busyAt .w3 []).ready = true ∧ (busyAt .w3 []).pend = .none ∧
    (busyAt .w3 [some (.ok true)]).answerTo .edgeWasDetected = some (.ok true) ∧
    (busyAt .w3 [some (.ok false)]).answerTo .edgeWasDetected = some (.ok false) ∧
    (busyAt .w3 [some (.fail 4)]).answerTo .edgeWasDetected = some (.fail 4) ∧
    ({ busyAt .w4 [] with pollcnt := 1 }).pollcnt = (busyAt .w4 []).params.pollAttempts ∧
    ({ busyAt .w4 [] with pollcnt := 0 }).pollcnt ≠ (busyAt .w4 []).params.pollAttempts := by decide

theorem witness_ReadDisarmsOnEveryExit : (pending .ready []).ready = true ∧ (pending .ready []).pos = .w5 ∧
    (pending .ready [some (.ok false)]).answerTo .disarmEdge = some (.ok false) ∧
    (pending .timeout [some (.ok false)]).answerTo .disarmEdge = some (.ok false) ∧
    (pending .ioerr [some (.ok false)]).answerTo .disarmEdge = some (.ok false) ∧
    (pending .ready [some (.fail 2)]).answerTo .disarmEdge = some (.fail 2) ∧
    (pending .timeout [some (.fail 2)]).answerTo .disarmEdge = some (.fail 2) ∧
    (pending .ioerr [some (.fail 2)]).answerTo .disarmEdge = some (.fail 2) := by decide

theorem witness_ReadPulses : (busyAt .b0 []).ready = true ∧
    (busyAt .b0 [some (.ok false)]).answerTo (.writeLevel .high) = some (.ok false) ∧
    (busyAt .e0 [some (.ok false)]).answerTo (.writeLevel .high) = some (.ok false) ∧ (busyAt .b1 []).pos = .b1 ∧
    (busyAt .b2 [some (.ok false)]).answerTo (.writeLevel .low) = some (.ok false) ∧
    (busyAt .e2 [some (.ok false)]).answerTo (.writeLevel .low) = some (.ok false) ∧ (busyAt .e2 []).params.tLow ≠ 0 ∧
    (busyAt .b3 []).pos = .b3 := by decide

theorem witness_ReadSamplesABit : (busyAt .b4 [some (.ok true)]).ready = true ∧ (busyAt .b4 []).pos = .b4 ∧
    (busyAt .b4 [some (.ok true)]).answerTo .readLevel = some (.ok true) ∧
    ({ busyAt .b4 [some (.ok true)] with bitcnt := 23 }).bitcnt + 1 = 24 := by decide

/-- Both ways to the counting: with a Low time, and without one. -/
theorem witness_ReadCountsEndPulsesAndCompletes : (busyAt .e3 []).ready = true ∧ (busyAt .e3 []).pos = .e3 ∧
    (busyAt .e3 []).pulsecnt + 1 = (busyAt .e3 []).endpulses.toNat ∧
    ({ busyAt .e3 [] with endpulses := 3 }).pulsecnt + 1 ≠ 3 ∧
    ({ busyAt .e2 [some (.ok false)] with params := { smallParams with tLow := 0 } }).answerTo (.writeLevel .low) =
      some (.ok false) := by decide

theorem witness_FailingPrimitiveEndsTheCommand : (busyAt .e2 []).ready = true ∧ (busyAt .e2 []).pend = .none ∧
    (busyAt .e2 []).running = some .read ∧ (busyAt .e2 []).phase = .endpulse ∧ Pos.e2.prim = some (.writeLevel .low) ∧
    (busyAt .e2 [some (.fail 7)]).answerTo (.writeLevel .low) = some (.fail 7) ∧
    (busyAt .b4 [some (.fail 9)]).answerTo .readLevel = some (.fail 9) ∧ (busyAt .rs3 []).phase = .reset ∧
    (busyAt .s0 []).phase = .shutdown := by decide

theorem witness_UnansweredPrimitiveWaits : (busyAt .w0 [none]).ready = true ∧ (busyAt .w0 [none]).running = some .read ∧
    Pos.w0.prim = some .armFallingEdge ∧ (busyAt .w0 [none]).answerTo .armFallingEdge = none ∧
    (pending .ready [none]).pend ≠ .none ∧ (pending .ready [none]).answerTo .disarmEdge = none := by decide

/-- `live` with both handles on one pin, and each command. -/
theorem witness_RefusedSituations : ({ live with dpin := 5 }).pos = .idle ∧ ({ live with dpin := 5 }).initialised = true ∧
    ({ live with dpin := 5 }).cpin = ({ live with dpin := 5 }).dpin ∧
    ({ busyAt .w0 [] with ready := false }).running = some .read ∧ Pos.w0.prim = some .armFallingEdge ∧
    ({ live with ready := false }).pos = .idle ∧ ({ live with ready := false }).initialised = true ∧
    ({ live with ready := false }).cpin ≠ ({ live with ready := false }).dpin ∧
    ({ fresh with ready := false }).pos = .idle ∧ pinValid fresh.params 5 = true ∧ pinValid fresh.params 6 = true := by
  decide

/-! ### Hypotheses met: whole commands -/

theorem witness_InitRun : Inv { fresh with
      cmds := [some (encode (.init 5 6))]
      replies := [some (.ok false), some (.ok false)] } ∧
    fresh.initialised = false ∧ pinValid fresh.params 5 = true ∧ pinValid fresh.params 6 = true :=
  ⟨by constructor <;> decide, by decide, by decide, by decide⟩

theorem witness_ResetRun : Inv { offering (encode .reset) with replies := List.replicate 3 (some (.ok false)) } ∧
    live.cpin ≠ live.dpin := ⟨by constructor <;> decide, by decide⟩

theorem witness_ShutdownThenResetLeavesTheClockLow : Inv { live with
      cmds := [some (encode .shutdown), some (encode .reset)]
      replies := List.replicate 4 (some (.ok false)) } := by constructor <;> decide

theorem witness_ReadFastPathRun : Inv { offering (encode .read) with
      replies := List.replicate 4 (some (.ok false)) ++ frameReplies (List.replicate 24 true) 1 ++ [] } ∧
    (List.replicate 24 true).length = 24 ∧ live.endpulses.toNat = 1 := ⟨by constructor <;> decide, by decide, by decide⟩

theorem witness_ReadAfterPollingRun : Inv { offering (encode .read) with
      replies := [some (.ok false), some (.ok false), some (.ok true)] ++ List.replicate 0 (some (.ok false)) ++
        [some (.ok true), some (.ok false)] ++ frameReplies (List.replicate 24 true) 1 ++ [] } ∧
    0 < live.params.pollAttempts := ⟨by constructor <;> decide, by decide⟩

theorem witness_ReadTimeoutRun : Inv { offering (encode .read) with
      replies := [some (.ok false), some (.ok false), some (.ok true)] ++
        List.replicate live.params.pollAttempts (some (.ok false)) ++ [some (.ok false)] ++ [] } := by
  constructor <;> decide

theorem witness_EveryCommandEnds : Inv (busyAt .w0 (List.replicate 83 (some (.ok false)))) ∧
    (busyAt .w0 []).phase ≠ .idle ∧ (∀ r ∈ List.replicate 83 (some (Answer.ok false)), r ≠ none) ∧
    smallParams.pollAttempts + 82 ≤ (List.replicate 83 (some (Answer.ok false))).length :=
  ⟨by constructor <;> decide, by decide, by decide, by decide⟩

/-! ### Hypotheses met: who writes what -/

theorem witness_ResultWrittenOnlyByAGoodRead :
    after (step atLastPulse) (fun t => decide (t.result ≠ atLastPulse.result)) = some true ∧
    after (step { live with result := .word 1, rstn := [false] }) (fun t => t.result) = some (.word 0) := by decide

theorem witness_AccWrittenOnlyByRead :
    after (step (busyAt .b4 [some (.ok true)])) (fun t => t.acc) = some 1 ∧
    after (step { offering 4 with acc := 1 }) (fun t => (t.acc, t.pos)) = some (0, .w0) := by decide

theorem witness_ConfigWrittenOnlyByInitAndSetgain :
    after (step (offering 0x15)) (fun t => t.config) = some (2, 5, 6) ∧
    after (step { fresh with cmds := [some 0x00060501] }) (fun t => t.config) = some (1, 5, 6) ∧
    after (step { initAt .i1 (.ok false) with endpulses := 3 }) (fun t => t.config) = some (1, 5, 6) ∧
    after (step { live with rstn := [false] }) (fun t => t.config) = some (1, 0, 0) := by decide

theorem witness_ValidityBitsChangeAsStated : Inv (initAt .i1 (.ok false)) ∧
    after (step (initAt .i1 (.ok false))) (fun t => t.validity) = some (false, true) ∧
    after (step { offering 0x00060501 with resultValid := true }) (fun t => t.validity) = some (false, false) ∧
    after (step { offering 4 with resultValid := true }) (fun t => t.validity) = some (false, true) ∧
    after (step atLastPulse) (fun t => t.validity) = some (true, true) :=
  ⟨by constructor <;> decide, by decide, by decide, by decide, by decide⟩

/-- Each clause's change happens: both directions, the level, the arming. -/
theorem witness_LinesChangeOnlyByTheirPrimitives :
    after (step (initAt .i1 (.ok false))) (fun t => t.dirClock) = some .output ∧
    after (step (initAt .i0 (.ok false))) (fun t => t.dirData) = some .input ∧
    after (step (busyAt .s0 [some (.ok false)])) (fun t => t.clkLvl) = some .high ∧
    after (step { initAt .i1 (.ok false) with pins := .ref { quietPins with pdSckOe := false }, dout := [true] })
      (fun t => t.clkLvl) = some .low ∧
    after (step (busyAt .w0 [some (.ok false)])) (fun t => t.edgeArmed) = some .set := by decide

theorem witness_FirstFailureWins : Inv (pending .ready [some (.fail 2)]) ∧
    after (step (pending .ready [some (.fail 2)])) (fun t => (t.iocause, t.cleanupFail)) =
      some (⟨.disarmEdge, .data, 2⟩, false) ∧
    after (step { pending .timeout [some (.fail 2)] with pollcnt := 1 }) (fun t => (t.iocause, t.cleanupFail)) =
      some (.clear, true) := ⟨inv_disarm_failed, by decide, by decide⟩

theorem witness_OneResponsePerCommand : Inv (offering 0x15) ∧
    after (step (offering 0x15)) (fun t => (t.rspValid, t.log)) = some (true, [.response ⟨.ok, false, .zero 32⟩]) :=
  ⟨by constructor <;> decide, by decide⟩

/-! ### Hypotheses met: arithmetic, bindings, independence -/

theorem witness_ShiftInMostSignificantFirst : (List.replicate 24 Level.high).length = 24 ∧
    shiftAll (List.replicate 24 .high) = 0xFFFFFF ∧ shiftAll (.high :: List.replicate 23 .low) = 0x800000 := by decide

theorem witness_SignExtensionIsExact : 24 ≤ Config.dataBits ∧ 24 ≤ smallParams.resultW := by decide

theorem witness_HostRegisterLayout : Inv live ∧ (live.hostRead 1).width = 32 ∧ 3 < 4 := ⟨inv_live, by decide, by decide⟩

/-- `smallParams` at 3 MHz, where the sampling margin is kept. -/
def refParams : Params := { smallParams with clkCycles := 3 }

/-- A `reference` machine at `B3`, and its abstract twin. -/
def refAt : State := { busyAt .b3 [] with params := refParams, pins := .ref quietPins, dout := [true, true] }

theorem witness_ReferenceRefinesAbstract : Inv refAt ∧ ClockInv refAt ∧ refAt.pins = .ref quietPins ∧
    Refines refAt { busyAt .b3 [] with params := refParams } ∧ ∃ t, step refAt = .next t :=
  ⟨by constructor <;> decide, ⟨by decide, by decide, by intro _ r h; cases h; rfl⟩, rfl,
    ⟨⟨rfl, rfl, rfl, rfl, rfl, rfl⟩, rfl, rfl, ⟨rfl, rfl⟩, rfl, ⟨_, rfl⟩, ⟨by decide, by decide⟩⟩, _, rfl⟩

theorem witness_ReferenceNeverFails : NoFailure refAt ∧ ∃ t, step refAt = .next t :=
  ⟨⟨⟨_, rfl⟩, by decide, by decide, by decide⟩, _, rfl⟩

theorem witness_ReferencePinLayerCycle :
    ({ refAt with dout := [true, false, false, false] }).pins = .ref quietPins ∧
    ({ quietPins with edgeArmed := true }).edgeArmed = true := ⟨rfl, rfl⟩

/-- At `B3` with `T_LOW` = 1 µs at 2 MHz: two edges and no fewer; a primitive, and an acceptance. -/
theorem witness_ReferenceClockEdges :
    ({ refAt with params := { smallParams with clkCycles := 2 } }).delayDue = some 1 ∧ refAt.running = some .read ∧
    refAt.pins = .ref quietPins ∧ refAt.dout = [true, true] ++ [] ∧ (∀ m, 1 * 2 ≤ m * (1 * 1) → 2 ≤ m) ∧
    ({ refAt with pos := .b4 }).running = some .read ∧ Pos.b4.prim = some .readLevel ∧
    ({ offering 4 with pins := .ref quietPins, dout := [true] }).cmdReady = true ∧
    (∃ u, step { offering 4 with pins := .ref quietPins, dout := [true] } = .next u) :=
  ⟨by decide, by decide, rfl, rfl, by omega, by decide, by decide, by decide, _, rfl⟩

/-- At `B0` with the levels of the edges of a data bit of `refParams`: 3 of each delay, one of each primitive. -/
def refPulse : State := { busyAt .b0 [] with params := refParams, pins := .ref quietPins, dout := List.replicate 9 true }

/-- Both clauses: room for a pulse, and exactly for a data bit. -/
theorem witness_ReferencePulseTiming : Inv refPulse ∧ refPulse.ready = true ∧ refPulse.rstn = [] ∧
    refPulse.pins = .ref quietPins ∧ refPulse.drives ∧ refPulse.pos = .b0 ∧
    refPulse.params.highCycles + 1 ≤ refPulse.dout.length ∧
    refPulse.params.cyclesOf refPulse.params.tHigh + refPulse.params.cyclesOf refPulse.params.tLow + 3 =
      refPulse.dout.length :=
  ⟨by constructor <;> decide, rfl, rfl, rfl, by intro r h; cases h; rfl, rfl, by decide, by decide⟩

/-- 70_reset_and_hazards.md R277: 2 µs are enough for 3 cycles at 3 MHz and 1 µs, and not at 2 MHz; asked of the
`reference` binding only. -/
theorem test_sampling_margin : refParams.samplingMargin = true ∧
    ({ smallParams with clkCycles := 2 }).samplingMargin = false ∧
    ({ smallParams with clkCycles := 2, tOut := 0 }).samplingMargin = true ∧
    refAt.pins.keepsMargin smallParams = false ∧ live.pins.keepsMargin smallParams = true := by decide

theorem witness_ReadForgetsEarlierCommands : (offering (encode .read)).pos = .idle ∧
    (offering (encode .read)).inReset = false ∧ (offering (encode .read)).initialised = true ∧
    (offering (encode .read)).cmds = [some (encode .read)] := by decide

end Sys2Proof.Machine.Tests
end

/-! PROOF. The `reference` binding edge by edge, and the timing of a pulse and of a data bit (O58). -/

namespace Sys2Proof.Machine

/-! ### The parameters' times in clock cycles -/

theorem cycle_time_pos_of_wf {p : Params} (h : p.wf = true) : 0 < p.clkMicros * p.ticksPerMicro := by
  simp only [Params.wf, Params.timesWf, Bool.and_eq_true, decide_eq_true_eq] at h
  exact Nat.mul_pos (by omega) (by omega)

/-- The cycles of a pulse's High time last at least `T_HIGH` (40_primitives.md R128). -/
theorem le_highCycles_mul {p : Params} (h : p.wf = true) :
    p.tHigh * p.clkCycles ≤ p.highCycles * (p.clkMicros * p.ticksPerMicro) :=
  Nat.le_trans (le_cyclesOf_mul p p.tHigh (cycle_time_pos_of_wf h)) (Nat.mul_le_mul_right _ (Nat.le_succ _))

/-- The cycles of a pulse's High time last less than `T_PD` (70_reset_and_hazards.md R272). -/
theorem highCycles_mul_lt {p : Params} (h : p.wf = true) :
    p.highCycles * (p.clkMicros * p.ticksPerMicro) < p.tPd * p.clkCycles := by
  simp only [Params.wf, Params.timesWf, Params.slackCoversClock, Bool.and_eq_true, decide_eq_true_eq] at h
  have hlt : (p.tHigh + p.highSlack) * p.clkCycles < p.tPd * p.clkCycles :=
    Nat.mul_lt_mul_of_pos_right (by omega) (by omega)
  omega

/-- The cycles of a pulse's two delays keep the sampling margin (70_reset_and_hazards.md R277). -/
theorem samplingMargin_cycles {p : Params} (h : p.wf = true) (hm : p.samplingMargin = true) :
    3 * (p.clkMicros * p.ticksPerMicro) + p.tOut * p.clkCycles ≤
      (p.cyclesOf p.tHigh + p.cyclesOf p.tLow) * (p.clkMicros * p.ticksPerMicro) := by
  have hhigh := le_cyclesOf_mul p p.tHigh (cycle_time_pos_of_wf h)
  have hlow := le_cyclesOf_mul p p.tLow (cycle_time_pos_of_wf h)
  simp only [Params.samplingMargin, decide_eq_true_eq, Nat.add_mul] at hm ⊢
  omega

/-! ### The `reference` binding with laid-down levels of `dout` -/

@[simp] theorem drawDout_cons {s : State} {d : Bool} {rest : List Bool} (h : s.dout = d :: rest) :
    drawDout s = (d, { s with dout := rest }) := by
  simp [drawDout, h]

theorem cycle_ref {s : State} {r : ReferencePins} {d : Bool} {rest : List Bool} (hp : s.pins = .ref r)
    (hd : s.dout = d :: rest) : cycle s = { s with pins := .ref (r.edge d), dout := rest } := by
  simp [cycle, hp, drawDout_cons hd]

theorem cycles_ref {s : State} {r : ReferencePins} {ds rest : List Bool} (hp : s.pins = .ref r)
    (hd : s.dout = ds ++ rest) :
    cycles ds.length s = { s with pins := .ref (ds.foldl ReferencePins.edge r), dout := rest } := by
  induction ds generalizing s r with
  | nil =>
    obtain rfl : s.dout = rest := hd
    simp [cycles, ← hp]
  | cons d ds ih =>
    rw [List.length_cons, cycles, cycle_ref hp hd]
    exact ih rfl rfl

/-- A delay takes `ceil(t × F_CLK)` edges (70_reset_and_hazards.md R281); `Delay(0)` takes none. -/
theorem delay_ref {s : State} {r : ReferencePins} {ds rest : List Bool} {t : Nat}
    (hc : 0 < s.params.clkMicros * s.params.ticksPerMicro) (hp : s.pins = .ref r) (hd : s.dout = ds ++ rest)
    (hl : ds.length = s.params.cyclesOf t) :
    (delay t s).pins = .ref (ds.foldl ReferencePins.edge r) ∧ (delay t s).dout = rest := by
  unfold delay delayCycles
  split
  · next ht =>
    rw [ht, cyclesOf_zero _ hc] at hl
    obtain rfl := List.eq_nil_of_length_eq_zero hl
    exact ⟨hp, hd⟩
  · rw [← hl, cycles_ref hp hd]
    exact ⟨rfl, rfl⟩

/-- A primitive takes one edge, and its own writes win over it (20_memory.md R66). -/
theorem primitive_ref_cons {s : State} {r : ReferencePins} {d : Bool} {rest : List Bool} (hp : s.pins = .ref r)
    (hd : s.dout = d :: rest) (p : Prim) :
    (primitive p s).2.pins = .ref (r.after p d) ∧ (primitive p s).2.dout = rest := by
  rw [primitive_ref hp, drawDout_cons hd]
  exact ⟨rfl, rfl⟩

theorem issue_ref {s : State} {r : ReferencePins} (hr : s.ready = true) (hp : s.pins = .ref r) (p : Prim)
    (k : Answer → State → State) : issue p s k = .next (k (r.answer p) (primitive p s).2) :=
  issue_answered hr (answerTo_ref hp p).1 k

/-- A write of the clock line never fails in the `reference` binding. -/
theorem writeClock_ref {s : State} {r : ReferencePins} (hr : s.ready = true) (hp : s.pins = .ref r) (l : Level)
    (k : State → State) : writeClock l k s = .next (k (primitive (.writeLevel l) s).2) :=
  issue_ref hr hp _ _

/-! ### The pin registers some edges after a state -/

/-- The registers `r` after the first `n` edges of `ds`, with `b` in the output register. -/
def afterEdges (r : ReferencePins) (ds : List Bool) (n : Nat) (b : Bool) : ReferencePins :=
  { (ds.take n).foldl ReferencePins.edge r with pdSck := b }

@[simp] theorem foldl_edge_pdSckOe (ds : List Bool) (r : ReferencePins) :
    (ds.foldl ReferencePins.edge r).pdSckOe = r.pdSckOe := by
  induction ds generalizing r with
  | nil => rfl
  | cons d ds ih => exact ih (r.edge d)

/-- The edges do not read the output register. -/
theorem foldl_edge_pdSck (ds : List Bool) (r : ReferencePins) (b : Bool) :
    ds.foldl ReferencePins.edge { r with pdSck := b } = { ds.foldl ReferencePins.edge r with pdSck := b } := by
  induction ds generalizing r with
  | nil => rfl
  | cons d ds ih => exact ih (r.edge d)

theorem afterEdges_add (r : ReferencePins) (ds : List Bool) (n c : Nat) (b : Bool) :
    ((ds.drop n).take c).foldl ReferencePins.edge (afterEdges r ds n b) = afterEdges r ds (n + c) b := by
  rw [afterEdges, afterEdges, foldl_edge_pdSck, List.take_add, List.foldl_append]

theorem afterEdges_edge (r : ReferencePins) {ds : List Bool} {n : Nat} (h : n < ds.length) (b : Bool) :
    (afterEdges r ds n b).edge ds[n] = afterEdges r ds (n + 1) b := by
  rw [← afterEdges_add, List.drop_eq_getElem_cons h]
  rfl

theorem afterEdges_write (r : ReferencePins) {ds : List Bool} {n : Nat} (h : n < ds.length) (b : Bool) (l : Level) :
    (afterEdges r ds n b).after (.writeLevel l) ds[n] = afterEdges r ds (n + 1) (decide (l = .high)) := by
  rw [ReferencePins.after, afterEdges_edge r h]
  cases l <;> rfl

/-- The synchroniser's output is the level two edges back (20_memory.md R66). -/
theorem afterEdges_doutS (r : ReferencePins) {ds : List Bool} {n : Nat} (h : n + 1 < ds.length) (b : Bool) :
    (afterEdges r ds (n + 2) b).doutS = ds[n] := by
  rw [← afterEdges_edge r h, ← afterEdges_edge r (Nat.lt_of_succ_lt h)]
  rfl

theorem afterEdges_clkLvl {r : ReferencePins} (h : r.pdSckOe = true) (ds : List Bool) (n : Nat) (b : Bool) :
    (PinLayer.ref (afterEdges r ds n b)).clkLvl = driven b := by
  simp [PinLayer.clkLvl, afterEdges, h]

/-! ### What the counting of an end pulse leaves -/

@[simp] theorem countPulse_pins (s : State) : (countPulse s).pins = s.pins := by
  unfold countPulse; split <;> rfl
@[simp] theorem countPulse_dout (s : State) : (countPulse s).dout = s.dout := by
  unfold countPulse; split <;> rfl
@[simp] theorem afterEndFall_pins (s : State) : (afterEndFall s).pins = s.pins := by
  unfold afterEndFall; split <;> simp
@[simp] theorem afterEndFall_dout (s : State) : (afterEndFall s).dout = s.dout := by
  unfold afterEndFall; split <;> simp

/-- The sample of a data bit (42_read.md R189) in the `reference` binding, where it never fails. -/
theorem readB4_ref {s : State} {r : ReferencePins} (hr : s.ready = true) (hp : s.pins = .ref r) :
    readB4 s = .next (goto (if s.bitcnt + 1 = Config.dataBits then .e0 else .b0)
      { (primitive .readLevel s).2 with acc := shiftIn s.acc (levelOf r.doutS), bitcnt := s.bitcnt + 1 }) := by
  simp only [readB4, issue_ref hr hp, ReferencePins.answer, primitive_acc, primitive_bitcnt]

/-! ### A command in progress -/

/-- A step of a command in progress is its meaning on the ticked state (10_state.md R23). -/
theorem step_running {s : State} {i : Instr} (hr : s.inReset = false) (hi : s.running = some i) :
    step s = exec i (tick s) := by
  simp [step, hr, hi]

theorem running_read {s : State} (h : s.pos.phase.isRead = true) : s.running = some .read := by
  unfold State.running
  rw [phase_eq]
  cases hp : s.pos.phase <;> simp_all [Phase.isRead]

/-! ### The micro-steps of a pulse -/

/-- `u` stands at `p`, `n` clock edges after the `reference` state `s` with registers `r`, with `b` in the output register;
what it shares with `s` is what a pulse leaves alone (42_read.md R188, R191). -/
structure InPulse (s : State) (r : ReferencePins) (p : Pos) (b : Bool) (n : Nat) (u : State) : Prop where
  params : u.params = s.params
  ready : u.ready = true
  rstn : u.rstn = []
  acc : u.acc = s.acc
  bitcnt : u.bitcnt = s.bitcnt
  pos : u.pos = p
  pins : u.pins = .ref (afterEdges r s.dout n b)
  dout : u.dout = s.dout.drop n

/-- The steps of a pulse: the rising write, the delay while High, the falling write (42_read.md R188, R191). -/
inductive PulseAt : Pos → Pos → Pos → Prop where
  | data : PulseAt .b0 .b1 .b2
  | endPulse : PulseAt .e0 .e1 .e2

namespace InPulse

variable {s u : State} {r : ReferencePins} {p rise high fall : Pos} {b : Bool} {n t : Nat}

theorem start (hr : s.ready = true) (hn : s.rstn = []) (hp : s.pins = .ref r) : InPulse s r s.pos r.pdSck 0 s :=
  ⟨rfl, hr, hn, rfl, rfl, rfl, hp, rfl⟩

theorem tick (h : InPulse s r p b n u) : InPulse s r p b n (tick u) :=
  { h with rstn := by simp [h.rstn] }

theorem goto (h : InPulse s r p b n u) (q : Pos) : InPulse s r q b n (goto q u) :=
  { h with pos := rfl }

theorem dout_cons (h : InPulse s r p b n u) (hn : n < s.dout.length) : u.dout = s.dout[n] :: s.dout.drop (n + 1) := by
  rw [h.dout, List.drop_eq_getElem_cons hn]

theorem clkLvl (h : InPulse s r p b n u) (ho : r.pdSckOe = true) : u.clkLvl = driven b := by
  rw [clkLvl_eq, h.pins, afterEdges_clkLvl ho]

theorem write (h : InPulse s r p b n u) (hn : n < s.dout.length) (l : Level) :
    InPulse s r p (decide (l = .high)) (n + 1) (primitive (.writeLevel l) u).2 := by
  obtain ⟨hpins, hdout⟩ := primitive_ref_cons h.pins (h.dout_cons hn) (.writeLevel l)
  rw [afterEdges_write r hn] at hpins
  exact ⟨by simp [h.params], by simp [h.ready], by simp [h.rstn], by simp [h.acc], by simp [h.bitcnt],
    by simp [h.pos], hpins, hdout⟩

theorem delay (h : InPulse s r p b n u) (hc : 0 < s.params.clkMicros * s.params.ticksPerMicro)
    (hn : n + s.params.cyclesOf t ≤ s.dout.length) :
    InPulse s r p b (n + s.params.cyclesOf t) (delay t u) := by
  have hsplit : u.dout = (s.dout.drop n).take (s.params.cyclesOf t) ++ s.dout.drop (n + s.params.cyclesOf t) := by
    rw [h.dout, ← List.drop_drop, List.take_append_drop]
  obtain ⟨hpins, hdout⟩ := delay_ref (t := t) (h.params ▸ hc) h.pins hsplit (by
    rw [h.params, List.length_take, List.length_drop]; omega)
  rw [afterEdges_add] at hpins
  exact ⟨by simp [h.params], by simp [h.ready], by simp [h.rstn], by simp [h.acc], by simp [h.bitcnt],
    by simp [h.pos], hpins, hdout⟩

theorem step_eq (h : InPulse s r p b n u) (hp : p.phase.isRead = true) :
    step u = execRead (Machine.tick u) :=
  step_running (by simp [State.inReset, h.rstn]) (running_read (h.pos ▸ hp))

/-- The rising write (R188, R191): on to the delay, or past it when `T_HIGH` is 0. -/
theorem step_rise (h : InPulse s r rise b n u) (hq : PulseAt rise high fall) (hn : n < s.dout.length) :
    ∃ v, step u = .next v ∧ InPulse s r (if s.params.tHigh = 0 then fall else high) true (n + 1) v := by
  refine ⟨_, ?_, (h.tick.write hn .high).goto _⟩
  cases hq <;>
  · rw [h.step_eq rfl]
    simp only [execRead, tick_pos, h.pos, writeClock_ref h.tick.ready h.tick.pins, afterRise, primitive_params,
      tick_params, h.params]

/-- A delay step, or nothing when the delay is 0 and the position before it skips the step (R188, R191). -/
theorem run_delay (h : InPulse s r (if t = 0 then fall else high) b n u)
    (hstep : ∀ v, InPulse s r high b n v → step v = .next (Machine.goto fall (Machine.delay t (Machine.tick v))))
    (hc : 0 < s.params.clkMicros * s.params.ticksPerMicro) (hn : n + s.params.cyclesOf t ≤ s.dout.length) :
    ∃ m v, m ≤ 1 ∧ Sys2Proof.core.run m u = .next v ∧ InPulse s r fall b (n + s.params.cyclesOf t) v := by
  by_cases ht : t = 0
  · subst ht
    rw [cyclesOf_zero _ hc]
    exact ⟨0, u, Nat.zero_le _, rfl, h⟩
  · rw [if_neg ht] at h
    exact ⟨1, _, Nat.le_refl 1, core_run_next (hstep u h) 0, (h.tick.delay hc hn).goto fall⟩

/-- The delay while the clock is High (R188, R191). -/
theorem run_hold (h : InPulse s r (if s.params.tHigh = 0 then fall else high) b n u) (hq : PulseAt rise high fall)
    (hc : 0 < s.params.clkMicros * s.params.ticksPerMicro)
    (hn : n + s.params.cyclesOf s.params.tHigh ≤ s.dout.length) :
    ∃ m v, m ≤ 1 ∧ Sys2Proof.core.run m u = .next v ∧
      InPulse s r fall b (n + s.params.cyclesOf s.params.tHigh) v := by
  refine h.run_delay (fun v hv => ?_) hc hn
  cases hq <;>
  · rw [hv.step_eq rfl]
    simp only [execRead, tick_pos, hv.pos, tick_params, hv.params]

/-- The delay of a data bit while the clock is Low (R188). -/
theorem run_low (h : InPulse s r (if s.params.tLow = 0 then .b4 else .b3) b n u)
    (hc : 0 < s.params.clkMicros * s.params.ticksPerMicro)
    (hn : n + s.params.cyclesOf s.params.tLow ≤ s.dout.length) :
    ∃ m v, m ≤ 1 ∧ Sys2Proof.core.run m u = .next v ∧ InPulse s r .b4 b (n + s.params.cyclesOf s.params.tLow) v := by
  refine h.run_delay (fun v hv => ?_) hc hn
  rw [hv.step_eq rfl]
  simp only [execRead, tick_pos, hv.pos, tick_params, hv.params]

/-- The falling write of a data bit (R188): on to the delay, or past it when `T_LOW` is 0. -/
theorem step_fall_data (h : InPulse s r .b2 b n u) (hn : n < s.dout.length) :
    ∃ v, step u = .next v ∧ InPulse s r (if s.params.tLow = 0 then .b4 else .b3) false (n + 1) v := by
  refine ⟨_, ?_, (h.tick.write hn .low).goto _⟩
  rw [h.step_eq rfl]
  simp only [execRead, tick_pos, h.pos, writeClock_ref h.tick.ready h.tick.pins, primitive_params, tick_params,
    h.params]

/-- The falling write of a pulse takes one edge and drives the line Low, whether or not an end pulse is counted with it
(R188, R191). -/
theorem step_fall (h : InPulse s r fall b n u) (hq : PulseAt rise high fall) (hn : n < s.dout.length) :
    ∃ v, step u = .next v ∧ v.pins = .ref (afterEdges r s.dout (n + 1) false) ∧ v.dout = s.dout.drop (n + 1) := by
  cases hq with
  | data =>
    obtain ⟨v, hv, hin⟩ := h.step_fall_data hn
    exact ⟨v, hv, hin.pins, hin.dout⟩
  | endPulse =>
    have hw := h.tick.write hn .low
    refine ⟨afterEndFall (primitive (.writeLevel .low) (Machine.tick u)).2, ?_, ?_, ?_⟩
    · rw [h.step_eq rfl]
      simp only [execRead, tick_pos, h.pos, writeClock_ref h.tick.ready h.tick.pins]
    · rw [afterEndFall_pins]; exact hw.pins
    · rw [afterEndFall_dout]; exact hw.dout

/-- The sample of a data bit (42_read.md R189) is the level two edges before its own. -/
theorem step_sample (h : InPulse s r .b4 b (n + 2) u) (hn : n + 2 < s.dout.length) :
    ∃ v, step u = .next v ∧ v.dout = s.dout.drop (n + 3) ∧
      v.acc = shiftIn s.acc (if s.dout[n] then .high else .low) ∧ v.bitcnt = s.bitcnt + 1 := by
  have hstep : step u = readB4 (Machine.tick u) := by
    rw [h.step_eq rfl]
    simp only [execRead, tick_pos, h.pos]
  refine ⟨_, hstep.trans (readB4_ref h.tick.ready h.tick.pins), ?_, ?_, ?_⟩
  · exact (primitive_ref_cons h.tick.pins (h.tick.dout_cons hn) .readLevel).2
  · simp only [goto_acc, tick_acc, h.acc, afterEdges_doutS r (Nat.lt_of_succ_lt hn) b]
    rfl
  · simp only [goto_bitcnt, tick_bitcnt, h.bitcnt]

end InPulse

/-! ### The timing of a pulse and of a data bit -/

/-- The High time of a pulse (70_reset_and_hazards.md R281): the steps `1` to `n` leave the clock High, the next one makes
it Low, and `highCycles` edges lie between. -/
theorem pulse_high_edges {s : State} {r : ReferencePins} {rise high fall : Pos} (hq : PulseAt rise high fall)
    (hwf : s.params.wf = true) (hready : s.ready = true) (hrstn : s.rstn = []) (hpins : s.pins = .ref r)
    (hdrive : r.pdSckOe = true) (hpos : s.pos = rise) (hlen : s.params.highCycles + 1 ≤ s.dout.length) :
    ∃ (n : Nat) (u t : State), 1 ≤ n ∧ Sys2Proof.core.run 1 s = .next u ∧ Sys2Proof.core.run (n + 1) s = .next t ∧
      (∀ k, 1 ≤ k → k ≤ n → ∃ v, Sys2Proof.core.run k s = .next v ∧ v.clkLvl = .high) ∧ t.clkLvl = .low ∧
      u.dout.length - t.dout.length = s.params.highCycles := by
  have hc := cycle_time_pos_of_wf hwf
  unfold Params.highCycles at hlen ⊢
  obtain ⟨u, hsu, hu⟩ := (hpos ▸ InPulse.start hready hrstn hpins).step_rise hq (by omega)
  obtain ⟨m, v, hm, huv, hv⟩ := hu.run_hold hq hc (by omega)
  obtain ⟨t, hvt, htpins, htdout⟩ := hv.step_fall hq (by omega)
  have hrun_u : Sys2Proof.core.run 1 s = .next u := core_run_next hsu 0
  have hrun_v : Sys2Proof.core.run (m + 1) s = .next v := (core_run_next hsu m).trans huv
  refine ⟨m + 1, u, t, by omega, hrun_u, ?_, ?_, ?_, ?_⟩
  · exact (core_run_add (m + 1) 1 hrun_v).trans (core_run_next hvt 0)
  · intro k hk1 hkm
    obtain rfl | rfl : k = 1 ∨ k = m + 1 := by omega
    · exact ⟨u, hrun_u, hu.clkLvl hdrive⟩
    · exact ⟨v, hrun_v, hv.clkLvl hdrive⟩
  · rw [clkLvl_eq, htpins, afterEdges_clkLvl hdrive]
    rfl
  · rw [hu.dout, htdout, List.length_drop, List.length_drop]
    omega

/-- A data bit is the level of the edge that ends the delays of its pulse, counted from the rising write's as edge 0
(70_reset_and_hazards.md R277, 42_read.md R189). -/
theorem data_bit_sampled {s : State} {r : ReferencePins} (hwf : s.params.wf = true) (hready : s.ready = true)
    (hrstn : s.rstn = []) (hpins : s.pins = .ref r) (hpos : s.pos = .b0) {j : Nat}
    (hj : j = s.params.cyclesOf s.params.tHigh + s.params.cyclesOf s.params.tLow) (hlen : j + 3 ≤ s.dout.length) :
    ∃ (k : Nat) (d : Bool) (t : State), k ≤ 5 ∧ Sys2Proof.core.run k s = .next t ∧ s.dout[j]? = some d ∧
      t.dout = s.dout.drop (j + 3) ∧ t.acc = shiftIn s.acc (if d then .high else .low) ∧
      t.bitcnt = s.bitcnt + 1 := by
  have hc := cycle_time_pos_of_wf hwf
  obtain ⟨u, hsu, hu⟩ := (hpos ▸ InPulse.start hready hrstn hpins).step_rise .data (by omega)
  obtain ⟨m, v, hm, huv, hv⟩ := hu.run_hold .data hc (by omega)
  obtain ⟨w, hvw, hw⟩ := hv.step_fall_data (by omega)
  obtain ⟨l, x, hl, hwx, hx⟩ := hw.run_low hc (by omega)
  rw [show 0 + 1 + s.params.cyclesOf s.params.tHigh + 1 + s.params.cyclesOf s.params.tLow = j + 2 by omega] at hx
  obtain ⟨t, hxt, hdout, hacc, hbit⟩ := hx.step_sample (by omega)
  refine ⟨m + (l + 1 + 1) + 1, s.dout[j], t, by omega, ?_, List.getElem?_eq_getElem _, hdout, hacc, hbit⟩
  calc Sys2Proof.core.run (m + (l + 1 + 1) + 1) s
      = Sys2Proof.core.run (m + (l + 1 + 1)) u := core_run_next hsu _
    _ = Sys2Proof.core.run (l + 1 + 1) v := core_run_add m _ huv
    _ = Sys2Proof.core.run (l + 1) w := core_run_next hvw _
    _ = Sys2Proof.core.run 1 x := core_run_add l 1 hwx
    _ = .next t := core_run_next hxt 0

/-- Settles O58: the edges of a pulse and of a data bit are counted step by step, and the constraints on the parameters
turn the counts into the two bounds. -/
theorem referencePulseTiming : Obligations.ReferencePulseTiming := by
  refine ⟨?_, ?_⟩
  · intro s r hinv hready hrstn hpins hdrives hpos hlen
    obtain ⟨high, fall, hq⟩ : ∃ high fall, PulseAt s.pos high fall := by
      obtain hp | hp := hpos <;> rw [hp]
      · exact ⟨_, _, .data⟩
      · exact ⟨_, _, .endPulse⟩
    obtain ⟨n, u, t, hn, hu, ht, hhigh, hlow, hedges⟩ :=
      pulse_high_edges hq hinv.params_wf hready hrstn hpins (hdrives r hpins) rfl hlen
    exact ⟨n, u, t, hn, hu, ht, hhigh, hlow, hedges ▸ le_highCycles_mul hinv.params_wf,
      hedges ▸ highCycles_mul_lt hinv.params_wf⟩
  · intro s r hinv hready hrstn hpins hpos hlen
    obtain ⟨k, d, t, hk, ht, hd, hdout, hacc, hbit⟩ :=
      data_bit_sampled hinv.params_wf hready hrstn hpins hpos rfl hlen
    have hmargin : s.params.samplingMargin = true := by simpa [hpins] using hinv.margin
    exact ⟨k, _, d, t, hk, ht, hd, hdout, hacc, hbit, samplingMargin_cycles hinv.params_wf hmargin⟩

end Sys2Proof.Machine

/-! PROOF. The registers (10_state.md): the invariant, who writes what, the host's view (O8, O11, O12, O37, O38, O40,
O45 to O49, O52, O60). -/

namespace Sys2Proof.Machine

/-! ### The controller's invariant (O37, O38) -/

theorem pollAttempts_pos_of_wf {p : Params} (h : p.wf = true) : 0 < p.pollAttempts := by
  simp only [Params.wf, Bool.and_eq_true, decide_eq_true_eq] at h
  obtain ⟨⟨hpoll, -⟩, -⟩ := h
  exact hpoll

/-- The cause that stands in `IOCAUSE` while nothing has failed fits every `CAUSE_W` (10_state.md R31). -/
theorem zero_cause_lt (w : Nat) : (0 : Cause).toNat < 2 ^ w := Nat.two_pow_pos w

/-- What `Inv` asks of the registers at every position; it is all it asks in IDLE, but for BUSY, CODE and PEND. -/
structure RegistersOk (s : State) : Prop where
  params_wf : s.params.wf = true
  gain : s.endpulses ≠ 0
  pins : s.initialised = true → pinValid s.params s.cpin = true ∧ pinValid s.params s.dpin = true
  valid : s.resultValid = true → s.initialised = true
  bits : s.bitcnt ≤ 24
  pulses : s.pulsecnt ≤ 3
  polls : s.pollcnt ≤ s.params.pollAttempts
  margin : s.pins.keepsMargin s.params = true
  width : s.result.width = s.params.resultW
  cause : s.iocause.cause.toNat < 2 ^ s.params.causeW

theorem Inv.registersOk {s : State} (h : Inv s) : RegistersOk s :=
  ⟨h.params_wf, h.gain, fun hi => h.pins (.inl hi), fun hv => (h.valid hv).1, h.bits.1, h.pulses.1, h.polls.1,
    h.margin, h.width, h.cause⟩

section
variable {s : State} (h : Inv s)
include h

theorem Inv.pend_none (h5 : s.pos ≠ .w5) : s.pend = .none := by simpa [h5] using h.pend

theorem Inv.bitcnt_zero (hp : s.pos.phase = .wait) : s.bitcnt = 0 := h.bits.2.1 hp

theorem Inv.bitcnt_lt (hp : s.pos.phase = .shift) : s.bitcnt < 24 := h.bits.2.2.1 hp

theorem Inv.pulsecnt_zero (hp : s.pos.phase = .wait ∨ s.pos.phase = .shift) : s.pulsecnt = 0 := h.pulses.2.1 hp

theorem Inv.pulsecnt_lt (hp : s.pos.phase = .endpulse) : s.pulsecnt < s.endpulses.toNat := h.pulses.2.2 hp

theorem Inv.pollcnt_zero (hp : s.pos = .w0 ∨ s.pos = .w1 ∨ s.pos = .w2) : s.pollcnt = 0 := h.polls.2.1 hp

theorem Inv.pollcnt_lt (hp : s.pos = .w3) : s.pollcnt < s.params.pollAttempts := h.polls.2.2.1 hp

end

theorem RegistersOk.failIo {v : State} (h : RegistersOk v) (p : Prim) {k : Cause}
    (hk : k.toNat < 2 ^ v.params.causeW) : RegistersOk (failIo p k v) := by
  cases hp : v.pend with
  | none | ready => rw [failIo_first (by simp [hp])]; exact { h with cause := hk }
  | timeout | ioerr => rw [failIo_later (by simp [hp])]; exact { h with }

/-- A command that ends leaves the invariant, whatever its code (60_exceptions.md R230). -/
theorem RegistersOk.complete {v : State} (h : RegistersOk v) (hp : v.pend = .none) (c : Code) :
    Inv (complete c v) where
  params_wf := h.params_wf
  gain := h.gain
  busy := rfl
  done := fun _ => rfl
  code := by simp
  pend := by simp [hp]
  init := by simp [Pos.phase]
  running := by simp
  pins := fun hi => h.pins (by simpa [Pos.phase] using hi)
  valid := fun hv => ⟨h.valid hv, rfl⟩
  bits := ⟨h.bits, by simp [Pos.phase]⟩
  acc := by simp [Pos.phase]
  pulses := ⟨h.pulses, by simp [Pos.phase]⟩
  polls := ⟨h.polls, by simp [hp]⟩
  clean := by simp
  margin := h.margin
  width := h.width
  cause := h.cause

/-- What holds of a READ in progress at each of its positions (42_read.md R180, R181). -/
structure Reading (s : State) : Prop where
  position : s.pos.phase.isRead = true
  busy : s.busy = true
  done : s.done = false
  code : s.code = .ok
  initialised : s.initialised = true
  handles : s.cpin ≠ s.dpin
  valid : s.resultValid = false
  cleanup : s.cleanupFail = false

theorem isRead_ne {p : Pos} (h : p.phase.isRead = true) : p ≠ .idle ∧ p.phase ≠ .idle ∧ p.phase ≠ .init := by
  cases p <;> simp_all [Pos.phase, Phase.isRead]

theorem Inv.reading {s : State} (h : Inv s) (hp : s.pos.phase.isRead = true) : Reading s := by
  obtain ⟨hi, hph, hinit⟩ := isRead_ne hp
  obtain ⟨hini, hne⟩ := h.running hph hinit
  have hdone : s.done = false := Bool.eq_false_iff.mpr fun hd => hi (h.done hd)
  have hvalid : s.resultValid = false := Bool.eq_false_iff.mpr fun hv => by simpa [hp] using h.valid hv
  exact ⟨hp, by simpa [hi] using h.busy, hdone, h.code hdone, hini, hne, hvalid, (h.clean hi).1⟩

/-- The invariant of a READ in progress: what is left to say is its decision, its counters, `ACC` and `IOCAUSE`. -/
theorem Reading.inv {s : State} (h : Reading s) (hok : RegistersOk s) (pend : s.pend ≠ .none ↔ s.pos = .w5)
    (wait : s.pos.phase = .wait → s.bitcnt = 0 ∧ s.pulsecnt = 0 ∧ s.acc = 0)
    (shift : s.pos.phase = .shift → s.bitcnt < 24 ∧ s.pulsecnt = 0)
    (endpulse : s.pos.phase = .endpulse → s.bitcnt = 24 ∧ s.pulsecnt < s.endpulses.toNat)
    (start : s.pos = .w0 ∨ s.pos = .w1 ∨ s.pos = .w2 → s.pollcnt = 0)
    (attempt : s.pos = .w3 → s.pollcnt < s.params.pollAttempts)
    (timeout : s.pend = .timeout → s.pollcnt = s.params.pollAttempts)
    (clean : s.pend ≠ .ioerr → s.iocause = .clear) : Inv s := by
  obtain ⟨hi, -, hinit⟩ := isRead_ne h.position
  exact { hok with
    busy := by simp [h.busy, hi]
    done := by simp [h.done]
    code := fun _ => h.code
    pend := pend
    init := fun hp => absurd hp hinit
    running := fun _ _ => ⟨h.initialised, h.handles⟩
    pins := fun _ => hok.pins h.initialised
    valid := by simp [h.valid]
    bits := ⟨hok.bits, fun hp => (wait hp).1, fun hp => (shift hp).1, fun hp => (endpulse hp).1⟩
    acc := fun hp => (wait hp).2.2
    pulses := ⟨hok.pulses, fun hp => hp.elim (fun hw => (wait hw).2.1) fun hs => (shift hs).2,
      fun hp => (endpulse hp).2⟩
    polls := ⟨hok.polls, start, attempt, timeout⟩
    clean := fun _ => ⟨h.cleanup, clean⟩ }

/-- The invariant holds of every reset state with parameters that meet their constraints (10_state.md R36). -/
theorem inv_resetWith {p : Params} {pl : PinLayer} (hp : p.wf = true) (hm : pl.keepsMargin p = true) :
    Inv (State.resetWith p pl) where
  params_wf := hp
  gain := (by decide : Config.endPulsesDefault ≠ 0)
  busy := rfl
  done := fun _ => rfl
  code := fun _ => rfl
  pend := by simp [State.resetWith]
  init := by simp [State.resetWith, Pos.phase]
  running := by simp [State.resetWith]
  pins := by simp [State.resetWith, Pos.phase]
  valid := by simp [State.resetWith]
  bits := by simp [State.resetWith, Pos.phase]
  acc := fun _ => rfl
  pulses := by simp [State.resetWith, Pos.phase]
  polls := by simp [State.resetWith]
  clean := by simp [State.resetWith]
  margin := hm
  width := rfl
  cause := zero_cause_lt p.causeW

theorem Inv.hardReset {s : State} (h : Inv s) : Inv (hardReset s) :=
  { inv_resetWith h.params_wf (pl := s.pins.afterReset s.draws) (by simpa using h.margin) with }

theorem Inv.tick {s : State} (h : Inv s) : Inv (tick s) := { h with }

theorem Inv.taken {s : State} (h : Inv s) : Inv (taken s) := { h with }

theorem Inv.cycle {s : State} (h : Inv s) : Inv (cycle s) := by
  have hm := h.margin
  rw [← cycle_keepsMargin] at hm
  obtain ⟨pl, d, n, e⟩ := cycle_frame s
  rw [e] at hm ⊢
  exact { h with margin := hm }

theorem Inv.delay {s : State} (h : Inv s) (t : Nat) : Inv (delay t s) := by
  have hm := h.margin
  rw [← delay_keepsMargin t] at hm
  obtain ⟨pl, d, n, l, e⟩ := delay_frame t s
  rw [e] at hm ⊢
  exact { h with margin := hm }

theorem Inv.primitive {s : State} (h : Inv s) (p : Prim) : Inv (primitive p s).2 := by
  have hm := h.margin
  rw [← primitive_keepsMargin p] at hm
  obtain ⟨pl, dc, dd, r, d, n, l, e⟩ := primitive_frame p s
  rw [e] at hm ⊢
  exact { h with margin := hm }

/-! #### Within a phase, and out of the wait loop -/

/-- A command goes on within its phase: what is left to say is the attempt count (10_state.md R26). -/
theorem Inv.goto_within {v : State} {p q : Pos} (h : Inv v) (hp : v.pos = p)
    (hm : q.phase = p.phase ∧ p ≠ .idle ∧ q ≠ .idle ∧ p ≠ .w5 ∧ q ≠ .w5 := by decide)
    (h0 : q = .w0 ∨ q = .w1 ∨ q = .w2 → v.pollcnt = 0 := by simp)
    (h3 : q = .w3 → v.pollcnt < v.params.pollAttempts := by simp) : Inv (goto q v) := by
  subst hp
  obtain ⟨hq, hi, hqi, hv, h5⟩ := hm
  have hpend := h.pend_none hv
  exact { h with
    busy := by simpa [hqi, hi] using h.busy
    done := fun hd => absurd (h.done hd) hi
    pend := by simp [hpend, h5]
    init := fun hp => h.init (hq ▸ hp)
    running := fun h1 h2 => h.running (hq ▸ h1) (hq ▸ h2)
    pins := fun hp => h.pins (hp.imp_right (hq ▸ ·))
    valid := hq ▸ h.valid
    bits := hq ▸ h.bits
    acc := hq ▸ h.acc
    pulses := hq ▸ h.pulses
    polls := ⟨h.polls.1, h0, h3, by simp [hpend]⟩
    clean := fun _ => h.clean hi }

/-- The wait phase decides on `d` (42_read.md R182 to R185). -/
theorem Inv.leaveWait {v : State} {p : Pos} {d : Pend} (h : Inv v) (hp : v.pos = p)
    (hm : p.phase = .wait ∧ p ≠ .w5 := by decide) (hd : d ≠ .none := by simp)
    (ht : d = .timeout → v.pollcnt = v.params.pollAttempts := by simp) : Inv (leaveWait d v) := by
  subst hp
  obtain ⟨hw, h5⟩ := hm
  have hr := h.reading (by rw [hw]; rfl)
  have hpend := h.pend_none h5
  exact Reading.inv { hr with position := rfl } { h.registersOk with } (by simp [hd])
    (fun _ => ⟨h.bitcnt_zero hw, h.pulsecnt_zero (.inl hw), h.acc hw⟩) (by simp [Pos.phase]) (by simp [Pos.phase])
    (by simp) (by simp) ht (fun _ => (h.clean (isRead_ne hr.position).1).2 (by simp [hpend]))

/-- A primitive of the wait phase fails after the arming (42_read.md R182 to R184). -/
theorem Inv.waitFailed {v : State} (h : Inv v) (hm : v.pos.phase = .wait ∧ v.pos ≠ .w5) (p : Prim) {k : Cause}
    (hk : k.toNat < 2 ^ v.params.causeW) : Inv (waitFailed p k v) := by
  have hpend := h.pend_none hm.2
  have hl := h.leaveWait (d := .ioerr) rfl hm
  rw [Machine.waitFailed, failIo_first (.inl hpend)]
  exact { hl with
    clean := fun hi => ⟨(hl.clean hi).1, by simp⟩
    cause := hk }

/-- A fruitless polling attempt (42_read.md R184). -/
theorem Inv.attempted {v : State} (h : Inv v) (hp : v.pos = .w3) :
    Inv (goto .w4 { v with pollcnt := v.pollcnt + 1 }) := by
  have hg := h.goto_within (q := .w4) hp
  have hpend := h.pend_none (by simp [hp])
  exact { hg with polls := ⟨h.pollcnt_lt hp, by simp, by simp, by simp [hpend]⟩ }

/-! #### From one phase of READ to the next -/

/-- The disarm on the success path starts the shift phase (42_read.md R187). -/
theorem Inv.shiftBegun {v : State} (h : Inv v) (hp : v.pos = .w5) (hd : v.pend = .ready) :
    Inv (goto .b0 { v with pend := .none }) := by
  have hw : v.pos.phase = .wait := by rw [hp]; rfl
  have hr := h.reading (by rw [hw]; rfl)
  have hio : v.iocause = .clear := (h.clean (by simp [hp])).2 (by simp [hd])
  exact Reading.inv { hr with position := rfl } { h.registersOk with } (by simp) (by simp [Pos.phase])
    (by simp [h.bitcnt_zero hw, h.pulsecnt_zero (.inl hw)]) (by simp [Pos.phase])
    (by simp) (by simp) (by simp) (fun _ => hio)

/-- A data bit is sampled (42_read.md R189); the 24th starts the end pulses. -/
theorem Inv.sampled {v : State} (h : Inv v) (hp : v.pos = .b4) (a : Sample) :
    Inv (goto (if v.bitcnt + 1 = 24 then .e0 else .b0) { v with acc := a, bitcnt := v.bitcnt + 1 }) := by
  have hs : v.pos.phase = .shift := by rw [hp]; rfl
  have hlt := h.bitcnt_lt hs
  have hpend := h.pend_none (by simp [hp])
  split
  · next h24 =>
    have hr := h.reading (by rw [hs]; rfl)
    have hgain : 0 < v.endpulses.toNat := Nat.pos_of_ne_zero fun h0 => h.gain (BitVec.eq_of_toNat_eq h0)
    have hio : v.iocause = .clear := (h.clean (by simp [hp])).2 (by simp [hpend])
    exact Reading.inv { hr with position := rfl } { h.registersOk with bits := hlt } (by simp [hpend])
      (by simp [Pos.phase]) (by simp [Pos.phase]) (fun _ => ⟨h24, by simpa [h.pulsecnt_zero (.inr hs)] using hgain⟩)
      (by simp) (by simp) (by simp [hpend]) (fun _ => hio)
  · next h24 =>
    have hg := h.goto_within (q := .b0) hp
    exact { hg with
      bits := ⟨hlt, by simp [Pos.phase], fun _ => Nat.lt_of_le_of_ne hlt h24, by simp [Pos.phase]⟩
      acc := by simp [Pos.phase] }

/-- An end pulse is counted (42_read.md R191, R192); the last one completes the READ. -/
theorem Inv.countPulse {v : State} (h : Inv v) (hp : v.pos = .e2 ∨ v.pos = .e3) : Inv (countPulse v) := by
  have hs : v.pos.phase = .endpulse := by obtain hp | hp := hp <;> rw [hp] <;> rfl
  have hw5 : v.pos ≠ .w5 := by rintro e; simp [e] at hp
  have hlt := h.pulsecnt_lt hs
  have hle : v.pulsecnt + 1 ≤ 3 := by omega
  unfold Machine.countPulse
  split
  · refine RegistersOk.complete ?_ ?_ .ok
    · exact { h.registersOk with
        valid := fun _ => (h.reading (by rw [hs]; rfl)).initialised
        pulses := hle
        width := rfl }
    · exact h.pend_none hw5
  · next hn =>
    have hg := h.goto_within (q := .e0) rfl (by obtain hp | hp := hp <;> simp [hp, Pos.phase])
    exact { hg with pulses := ⟨hle, by simp [Pos.phase], fun _ => Nat.lt_of_le_of_ne hlt hn⟩ }

/-! #### Acceptance -/

theorem Inv.accepted {u : State} (h : Inv u) : RegistersOk (accepted u) :=
  { h.cycle.registersOk with cause := zero_cause_lt _ }

/-- RESET, SHUTDOWN or INIT starts (41_lifecycle.md R150): INIT on the handles it has resolved, the others on an
initialised block. -/
theorem RegistersOk.begin_lifecycle {v : State} {p : Pos} (h : RegistersOk v) (hp : p = .i0 ∨ p = .rs0 ∨ p = .s0)
    (hpend : v.pend = .none) (hcode : v.code = .ok) (hdone : v.done = false) (hcf : v.cleanupFail = false)
    (hio : v.iocause = .clear) (hinit : p = .i0 → v.initialised = false)
    (hrun : p ≠ .i0 → v.initialised = true ∧ v.cpin ≠ v.dpin)
    (hpins : pinValid v.params v.cpin = true ∧ pinValid v.params v.dpin = true) : Inv (begin p v) := by
  have hi0 : p.phase = .init ↔ p = .i0 := by obtain rfl | rfl | rfl := hp <;> decide
  have hread : p.phase.isRead = false := by obtain rfl | rfl | rfl := hp <;> rfl
  have hphase : p.phase ≠ .wait ∧ p.phase ≠ .shift ∧ p.phase ≠ .endpulse := by
    obtain rfl | rfl | rfl := hp <;> decide
  have hne : p ≠ .idle ∧ p ≠ .w0 ∧ p ≠ .w1 ∧ p ≠ .w2 ∧ p ≠ .w3 ∧ p ≠ .w5 := by
    obtain rfl | rfl | rfl := hp <;> decide
  exact { h with
    busy := by simp [hne]
    done := by simp [hdone]
    code := fun _ => hcode
    pend := by simp [hpend, hne]
    init := fun e => hinit (hi0.mp e)
    running := fun _ e => hrun fun e' => e (hi0.mpr e')
    pins := fun _ => hpins
    valid := fun hv => ⟨h.valid hv, hread⟩
    bits := ⟨h.bits, by simp [hphase]⟩
    acc := by simp [hphase]
    pulses := ⟨h.pulses, by simp [hphase]⟩
    polls := ⟨h.polls, by simp [hne, hpend]⟩
    clean := fun _ => ⟨hcf, fun _ => hio⟩ }

/-- A READ starts with its registers cleared (42_read.md R181). -/
theorem RegistersOk.begin_read {v : State} (h : RegistersOk v) (hcode : v.code = .ok) (hdone : v.done = false)
    (hcf : v.cleanupFail = false) (hio : v.iocause = .clear) (hi : v.initialised = true) (hne : v.cpin ≠ v.dpin) :
    Inv (begin .w0 (readClear v)) := by
  refine Reading.inv ⟨rfl, rfl, hdone, hcode, hi, hne, rfl, hcf⟩ ?_ (by simp) (fun _ => ⟨rfl, rfl, rfl⟩)
    (by simp [Pos.phase]) (by simp [Pos.phase]) (fun _ => rfl) (by simp) (by simp) (fun _ => hio)
  exact { h with valid := by simp, bits := by simp, pulses := by simp, polls := by simp }

/-- An idle micro-step keeps the invariant, whatever it accepts. -/
theorem Accepts.inv {w : Option Word} {u t : State} (ht : Accepts w u t) (h : Inv u) (hp : u.pos = .idle) :
    Inv t := by
  have hpend : (accepted u).pend = .none := (accepted_pend u).trans (h.pend_none (by simp [hp]))
  have hok := h.accepted
  have hcode := accepted_code u
  have hdone := accepted_done u
  have hcf := accepted_cleanupFail u
  have hio := accepted_iocause u
  cases ht with
  | quiet => exact h.cycle
  | illegal => exact hok.complete hpend _
  | initClock | initData =>
    refine RegistersOk.complete ?_ ?_ _
    · exact { hok with pins := by simp, valid := by simp, cause := zero_cause_lt _ }
    · exact hpend
  | init x c d hw hd hs hc hd' hr =>
    refine RegistersOk.begin_lifecycle ?_ (.inl rfl) hpend hcode hdone hcf hio (fun _ => rfl) (by simp)
      (by simp [hc, hd'])
    exact { hok with pins := by simp, valid := by simp }
  | notInitialised => exact hok.complete hpend _
  | reset x hw hd hi hr hne | shutdown x hw hd hi hr hne =>
    exact hok.begin_lifecycle (by simp) hpend hcode hdone hcf hio (by simp) (by simp [hi, hne])
      (hok.pins (by simpa using hi))
  | read x hw hd hi hr hne => exact hok.begin_read hcode hdone hcf hio (by simpa using hi) (by simpa using hne)
  | setgain x n hw hd hn =>
    refine RegistersOk.complete ?_ ?_ _
    · exact { hok with gain := hn }
    · exact hpend
  | setgainZero => exact hok.complete hpend _

/-! #### A command in progress -/

/-- A micro-step of a command in progress keeps the invariant. -/
theorem Works.inv {u t : State} (ht : Works u t) (h : Inv u) : Inv t := by
  have hv (p : Prim) := h.primitive p
  have hok (p : Prim) := (hv p).registersOk
  have hpos (p : Prim) {q : Pos} (hq : u.pos = q) : (primitive p u).2.pos = q := (primitive_pos p u).trans hq
  have hdpos (n : Nat) {q : Pos} (hq : u.pos = q) : (delay n u).pos = q := (delay_pos n u).trans hq
  have hpend (p : Prim) (h5 : u.pos ≠ .w5) : (primitive p u).2.pend = .none :=
    (primitive_pend p u).trans (h.pend_none h5)
  have hcause {p : Prim} {k : Cause} (ha : u.answerTo p = some (.fail k)) :
    k.toNat < 2 ^ (primitive p u).2.params.causeW := by simpa using answerTo_cause ha
  cases ht with
  | wait p => exact hv p
  | i0 v hp | rs0 v hp | rs1 v hp => exact (hv _).goto_within (hpos _ hp)
  | i1 v hp =>
    refine RegistersOk.complete ?_ ?_ _
    · exact { hok _ with
        gain := (by decide : Config.endPulsesDefault ≠ 0)
        pins := fun _ => (hv _).pins (.inr (by simp [hp, Pos.phase]))
        valid := fun _ => rfl }
    · exact hpend _ (by simp [hp])
  | initFail p k hp hq hr ha =>
    have h5 : u.pos ≠ .w5 := fun e => by simp [e, Pos.phase] at hp
    exact ((hok p).failIo p (hcause ha)).complete (by simpa using hpend p h5) _
  | rs2 hp => exact (h.delay _).goto_within (hdpos _ hp)
  | rs3 v hp | s0 v hp => exact (hok _).complete (hpend _ (by simp [hp])) _
  | w0 v hp | w1 v hp => exact (hv _).goto_within (hpos _ hp) (h0 := fun _ => (hv _).pollcnt_zero (by simp [hp]))
  | w2Low hp | w3Edge hp => exact (hv _).leaveWait (hpos _ hp)
  | w2High hp =>
    have h0 : u.pollcnt = 0 := h.pollcnt_zero (by simp [hp])
    exact (hv _).goto_within (hpos _ hp) (h3 := fun _ => by simpa [h0] using pollAttempts_pos_of_wf h.params_wf)
  | w3None hp => simpa using (hv .edgeWasDetected).attempted (hpos _ hp)
  | w4Last hp hn => exact (h.delay _).leaveWait (hdpos _ hp) (ht := fun _ => by simpa using hn)
  | w4More hp hn =>
    exact (h.delay _).goto_within (hdpos _ hp) (h3 := fun _ => by simpa using Nat.lt_of_le_of_ne h.polls.1 hn)
  | waitFail p k hp hq hr ha =>
    have hm : u.pos.phase = .wait ∧ u.pos ≠ .w5 := by obtain hp | hp | hp := hp <;> rw [hp] <;> decide
    exact (hv p).waitFailed (by simpa using hm) p (hcause ha)
  | w5Shift v hp hd => exact (hv _).shiftBegun (hpos _ hp) (by simpa using hd)
  | w5Disarm k hp hd hr ha | w5EndFail c k hp hd hr ha =>
    refine RegistersOk.complete ?_ ?_ _
    · exact { (hok _).failIo .disarmEdge (hcause ha) with }
    · rfl
  | w5End c v hp hd =>
    refine RegistersOk.complete ?_ ?_ _
    · exact { hok _ with }
    · rfl
  | rise p q v hp hq =>
    obtain ⟨rfl, rfl⟩ | ⟨rfl, rfl⟩ | ⟨rfl, rfl⟩ | ⟨rfl, rfl⟩ := hq <;>
      exact (hv _).goto_within (hpos _ hp)
  | hold p q hp hq =>
    obtain ⟨rfl, rfl⟩ | ⟨rfl, rfl⟩ := hq <;> exact (h.delay _).goto_within (hdpos _ hp)
  | fall p q v hp hq =>
    obtain ⟨rfl, rfl⟩ | ⟨rfl, rfl⟩ | ⟨rfl, rfl⟩ := hq <;>
      exact (hv _).goto_within (hpos _ hp)
  | b3 hp => exact (h.delay _).goto_within (hdpos _ hp)
  | b4 v q hp hq => simpa [hq] using (hv .readLevel).sampled (hpos _ hp) (shiftIn u.acc (levelOf v))
  | countFall v hp => exact (hv _).countPulse (.inl (hpos _ hp))
  | count hp => exact (h.delay _).countPulse (.inr (hdpos _ hp))
  | fail p k hp hq hr ha =>
    have h5 : u.pos ≠ .w5 := fun e => by simp [e, Pos.phase] at hp
    exact ((hok p).failIo p (hcause ha)).complete (by simpa using hpend p h5) _

/-- Settles O37: each of the things a step can do keeps the invariant. -/
theorem invariantKept : Obligations.InvariantKept := by
  intro s t h ht
  obtain ⟨-, rfl⟩ | ⟨-, hp, ha⟩ | ⟨-, -, hw⟩ := step_cases ht
  · exact h.tick.hardReset
  · exact ha.inv h.taken hp
  · exact hw.inv h.tick

end Sys2Proof.Machine

namespace Sys2Proof.Machine

/-- Settles O38: the reset state meets the register invariant, and the others ask nothing of it in IDLE. -/
theorem invariantsAtReset : Obligations.InvariantsAtReset := by
  have hpos : State.reset.pos = .idle := rfl
  have hlog : commandTrace State.reset.log = [] := rfl
  refine ⟨inv_resetWith default_params_wf rfl, ⟨?_, ?_, ?_⟩, ⟨?_, ?_⟩, ?_⟩
  · simp [hpos]
  · simp [hpos]
  · intro h; cases h
  · simp [hpos]
  · simp [hpos, Pos.phase]
  · constructor <;> simp [hpos, hlog, Pos.phase, Phase.isRead, risesDue]

/-! ### What each kind of micro-step writes -/

section
variable {w : Option Word} {u t : State}

/-- The last end pulse completes the READ; every other one only moves the count on (42_read.md R191, R192). -/
theorem countPulse_cases (v : State) :
    countPulse v = readDone { v with pulsecnt := v.pulsecnt + 1 } ∨
      countPulse v = goto .e0 { v with pulsecnt := v.pulsecnt + 1 } := by
  unfold countPulse
  split
  · exact .inl rfl
  · exact .inr rfl

@[simp] theorem countPulse_params (v : State) : (countPulse v).params = v.params := by
  obtain h | h := countPulse_cases v <;> rw [h] <;> rfl
@[simp] theorem countPulse_ready (v : State) : (countPulse v).ready = v.ready := by
  obtain h | h := countPulse_cases v <;> rw [h] <;> rfl
@[simp] theorem countPulse_acc (v : State) : (countPulse v).acc = v.acc := by
  obtain h | h := countPulse_cases v <;> rw [h] <;> rfl
@[simp] theorem countPulse_endpulses (v : State) : (countPulse v).endpulses = v.endpulses := by
  obtain h | h := countPulse_cases v <;> rw [h] <;> rfl
@[simp] theorem countPulse_cpin (v : State) : (countPulse v).cpin = v.cpin := by
  obtain h | h := countPulse_cases v <;> rw [h] <;> rfl
@[simp] theorem countPulse_dpin (v : State) : (countPulse v).dpin = v.dpin := by
  obtain h | h := countPulse_cases v <;> rw [h] <;> rfl
@[simp] theorem countPulse_initialised (v : State) : (countPulse v).initialised = v.initialised := by
  obtain h | h := countPulse_cases v <;> rw [h] <;> rfl
@[simp] theorem countPulse_dirClock (v : State) : (countPulse v).dirClock = v.dirClock := by
  obtain h | h := countPulse_cases v <;> rw [h] <;> rfl
@[simp] theorem countPulse_dirData (v : State) : (countPulse v).dirData = v.dirData := by
  obtain h | h := countPulse_cases v <;> rw [h] <;> rfl
@[simp] theorem countPulse_cmds (v : State) : (countPulse v).cmds = v.cmds := by
  obtain h | h := countPulse_cases v <;> rw [h] <;> rfl
@[simp] theorem countPulse_rstn (v : State) : (countPulse v).rstn = v.rstn := by
  obtain h | h := countPulse_cases v <;> rw [h] <;> rfl

/-- `u` stands in the end pulses of a READ and `t` is its successful completion (42_read.md R192). -/
structure ReadCompletes (u t : State) : Prop where
  phase : u.pos.phase = .endpulse
  result : t.result = signExtend u.params u.acc
  valid : t.resultValid = true
  code : t.code = .ok
  done : t.done = true
  pos : t.pos = .idle

/-- Only a READ that completes writes `RESULT` and `RESULT_VALID` while a command runs. -/
theorem Works.result (h : Works u t) :
    t.result = u.result ∧ t.resultValid = u.resultValid ∨ ReadCompletes u t := by
  cases h with
  | countFall v hp =>
    obtain e | e := countPulse_cases (primitive (.writeLevel .low) u).2 <;> rw [e]
    · exact .inr ⟨by rw [hp]; rfl, by simp [readDone], rfl, rfl, rfl, rfl⟩
    · exact .inl (by simp)
  | count hp =>
    obtain e | e := countPulse_cases (delay u.params.tLow u) <;> rw [e]
    · exact .inr ⟨by rw [hp]; rfl, by simp [readDone], rfl, rfl, rfl, rfl⟩
    · exact .inl (by simp)
  | _ => left; simp [failWith, waitFailed]

theorem Works.acc (h : Works u t) : t.acc = u.acc ∨ u.pos = .b4 ∧ ∃ l, t.acc = shiftIn u.acc l := by
  cases h with
  | b4 v q hp => exact .inr ⟨hp, _, rfl⟩
  | _ => left; simp [failWith, waitFailed]

theorem Works.config (h : Works u t) :
    t.config = u.config ∧ t.initialised = u.initialised ∨
      u.pos = .i1 ∧ t.config = (1, u.cpin, u.dpin) ∧ t.initialised = true ∧ t.code = .ok ∧ t.pos = .idle := by
  cases h with
  | i1 v hp => exact .inr ⟨hp, by simp [State.config, Config.endPulsesDefault], rfl, rfl, rfl⟩
  | _ => left; simp [State.config, failWith, waitFailed]

/-- A micro-step of a command leaves what is outside the block alone, and the lines as its primitive or its delay
does. -/
theorem Works.lines (h : Works u t) : t.outside = u.outside ∧
    ((∃ p, u.pos.prim = some p ∧ t.lines = (primitive p u).2.lines) ∨ ∃ n, t.lines = (delay n u).lines) := by
  refine ⟨by cases h <;> simp [State.outside, failWith, waitFailed], ?_⟩
  cases h with
  | rs2 | w4Last | w4More | hold | b3 => exact .inr ⟨_, rfl⟩
  | count hp => exact .inr ⟨u.params.tLow, by simp [State.lines]⟩
  | wait p hp => exact .inl ⟨p, hp, rfl⟩
  | initFail p k hp hq | fail p k hp hq | waitFail p k hp hq =>
    exact .inl ⟨p, hq, by simp [State.lines, failWith, waitFailed]⟩
  | rise p q v hp hq =>
    exact .inl ⟨_, by rw [hp]; obtain ⟨rfl, -⟩ | ⟨rfl, -⟩ | ⟨rfl, -⟩ | ⟨rfl, -⟩ := hq <;> rfl, rfl⟩
  | fall p q v hp hq =>
    exact .inl ⟨_, by rw [hp]; obtain ⟨rfl, -⟩ | ⟨rfl, -⟩ | ⟨rfl, -⟩ := hq <;> rfl, rfl⟩
  | w2Low hp | w2High hp | w3Edge hp | w3None hp => exact .inl ⟨_, by rw [hp]; rfl, rfl⟩
  | w5Disarm k hp | w5End c v hp | w5EndFail c k hp =>
    exact .inl ⟨.disarmEdge, by rw [hp]; rfl, by simp [State.lines]⟩
  | countFall v hp => exact .inl ⟨.writeLevel .low, by rw [hp]; rfl, by simp [State.lines]⟩
  | i0 v hp | i1 v hp | rs0 v hp | rs1 v hp | rs3 v hp | s0 v hp | w0 v hp | w1 v hp | w5Shift v hp | b4 v q hp =>
    exact .inl ⟨_, by rw [hp]; rfl, rfl⟩

theorem Accepts.result (h : Accepts w u t) : t.result = u.result := by
  cases h <;> simp [acceptIllegal]

theorem Accepts.acc (h : Accepts w u t) : t.acc = u.acc ∨ t.pos = .w0 ∧ t.acc = 0 := by
  cases h with
  | read => exact .inr ⟨rfl, rfl⟩
  | _ => left; simp [acceptIllegal]

theorem Accepts.config (h : Accepts w u t) : t.config = u.config ∨
    (t.pos = .i0 ∧ ∃ x c d, w = some x ∧ decode x = .ok (.init c d) ∧ pinValid u.params c = true ∧
      pinValid u.params d = true ∧ t.config = (u.endpulses, c, d)) ∨
    (u.initialised = true ∧ t.pos = .idle ∧ t.code = .ok ∧
      ∃ x n, w = some x ∧ decode x = .ok (.setgain n) ∧ n ≠ 0 ∧ t.config = (n, u.cpin, u.dpin)) := by
  cases h with
  | init x c d hw hd hs hc hd' => exact .inr (.inl ⟨rfl, x, c, d, hw, hd, hc, hd', by simp [State.config]⟩)
  | setgain x n hw hd hn hi => exact .inr (.inr ⟨hi, rfl, rfl, x, n, hw, hd, hn, by simp [State.config]⟩)
  | _ => left; simp [State.config, acceptIllegal]

theorem Accepts.initialised (h : Accepts w u t) : t.initialised = u.initialised ∨
    t.initialised = false ∧ ∃ x c d, w = some x ∧ decode x = .ok (.init c d) := by
  cases h with
  | initClock x c d hw hd | initData x c d hw hd | init x c d hw hd => exact .inr ⟨rfl, x, c, d, hw, hd⟩
  | _ => left; simp [acceptIllegal]

theorem Accepts.resultValid (h : Accepts w u t) : t.resultValid = u.resultValid ∨
    t.resultValid = false ∧ ∃ x i, w = some x ∧ decode x = .ok i ∧ (i = .read ∨ ∃ c d, i = .init c d) := by
  cases h with
  | initClock x c d hw hd | initData x c d hw hd | init x c d hw hd =>
    exact .inr ⟨rfl, x, _, hw, hd, .inr ⟨c, d, rfl⟩⟩
  | read x hw hd => exact .inr ⟨rfl, x, _, hw, hd, .inl rfl⟩
  | _ => left; simp [acceptIllegal]

end

/-- The word taken from the port stands at its head (20_memory.md R67). -/
theorem cmds_of_offered {s : State} {x : Word} (h : s.cmds.head?.join = some x) :
    ∃ rest, s.cmds = some x :: rest := by
  cases hc : s.cmds with
  | nil => simp [hc] at h
  | cons w rest => exact ⟨rest, by simpa [hc] using h⟩

/-! ### Who writes what (10_state.md R46) -/

/-- Settles O45: hardware reset clears `RESULT`, no acceptance touches it, a command only when a READ completes. -/
theorem resultWrittenOnlyByAGoodRead : Obligations.ResultWrittenOnlyByAGoodRead := by
  intro s t ht hne
  obtain ⟨hr, rfl⟩ | ⟨-, -, ha⟩ | ⟨hr, -, hw⟩ := step_cases ht
  · exact .inl ⟨hr, rfl⟩
  · exact absurd ha.result hne
  · obtain ⟨he, -⟩ | hc := hw.result
    · exact absurd he hne
    · exact .inr ⟨hr, hc.phase, hc.result, hc.valid, hc.code, hc.done, hc.pos⟩

/-- Settles O46: of the acceptances only READ's touches `ACC`, of the steps of a command only `B4`. -/
theorem accWrittenOnlyByRead : Obligations.AccWrittenOnlyByRead := by
  intro s t ht hne
  obtain ⟨hr, rfl⟩ | ⟨hr, hp, ha⟩ | ⟨hr, -, hw⟩ := step_cases ht
  · exact .inl ⟨hr, rfl⟩
  · obtain he | ⟨hpos, hacc⟩ := ha.acc
    · exact absurd he hne
    · exact .inr (.inl ⟨hr, hp, hpos, hacc⟩)
  · obtain he | ⟨hpos, hacc⟩ := hw.acc
    · exact absurd he hne
    · exact .inr (.inr ⟨hr, hpos, hacc⟩)

/-- Settles O47: hardware reset, INIT's and SETGAIN's acceptances, and INIT's last step are all that writes `CFG`. -/
theorem configWrittenOnlyByInitAndSetgain : Obligations.ConfigWrittenOnlyByInitAndSetgain := by
  intro s t ht hne
  obtain ⟨hr, rfl⟩ | ⟨hr, hp, ha⟩ | ⟨hr, -, hw⟩ := step_cases ht
  · exact .inl ⟨hr, rfl⟩
  · obtain he | ⟨hpos, x, c, d, hx, hd, hc, hd', hcfg⟩ | ⟨hi, hpos, hcode, x, n, hx, hd, hn, hcfg⟩ := ha.config
    · exact absurd he hne
    · obtain ⟨rest, hcmds⟩ := cmds_of_offered hx
      exact .inr (.inl ⟨hr, hp, hpos, x, c, d, rest, hcmds, hd, hc, hd', hcfg⟩)
    · obtain ⟨rest, hcmds⟩ := cmds_of_offered hx
      exact .inr (.inr (.inr ⟨hr, hp, hi, hpos, hcode, x, n, rest, hcmds, hd, hn, hcfg⟩))
  · obtain ⟨he, -⟩ | ⟨hpos, hcfg, hinit, hcode, -⟩ := hw.config
    · exact absurd he hne
    · exact .inr (.inr (.inl ⟨hr, hpos, hcfg, hinit, hcode⟩))

/-- How a step changes `INITIALISED` (10_state.md R30); no invariant is needed. -/
theorem step_initialised {s t : State} (ht : step s = .next t) : t.initialised = s.initialised ∨
    (t.initialised = true ∧ s.inReset = false ∧ s.pos = .i1 ∧ t.pos = .idle ∧ t.code = .ok) ∨
    (t.initialised = false ∧ (s.inReset = true ∨
      s.pos = .idle ∧ ∃ w c d rest, s.cmds = some w :: rest ∧ decode w = .ok (.init c d))) := by
  obtain ⟨hr, rfl⟩ | ⟨hr, hp, ha⟩ | ⟨hr, -, hw⟩ := step_cases ht
  · exact .inr (.inr ⟨rfl, .inl hr⟩)
  · obtain he | ⟨hi, x, c, d, hx, hd⟩ := ha.initialised
    · exact .inl he
    · obtain ⟨rest, hcmds⟩ := cmds_of_offered hx
      exact .inr (.inr ⟨hi, .inr ⟨hp, x, c, d, rest, hcmds, hd⟩⟩)
  · obtain ⟨-, he⟩ | ⟨hpos, -, hi, hcode, hidle⟩ := hw.config
    · exact .inl he
    · exact .inr (.inl ⟨hi, hr, hpos, hidle, hcode⟩)

/-- How a step changes `RESULT_VALID` (10_state.md R30); no invariant is needed. -/
theorem step_resultValid {s t : State} (ht : step s = .next t) : t.resultValid = s.resultValid ∨
    (t.resultValid = true ∧ s.inReset = false ∧ s.phase = .endpulse ∧ t.pos = .idle ∧ t.code = .ok) ∨
    (t.resultValid = false ∧ (s.inReset = true ∨
      s.pos = .idle ∧ ∃ w i rest, s.cmds = some w :: rest ∧ decode w = .ok i ∧
        (i = .read ∨ ∃ c d, i = .init c d))) := by
  obtain ⟨hr, rfl⟩ | ⟨hr, hp, ha⟩ | ⟨hr, -, hw⟩ := step_cases ht
  · exact .inr (.inr ⟨rfl, .inl hr⟩)
  · obtain he | ⟨hv, x, i, hx, hd, hi⟩ := ha.resultValid
    · exact .inl he
    · obtain ⟨rest, hcmds⟩ := cmds_of_offered hx
      exact .inr (.inr ⟨hv, .inr ⟨hp, x, i, rest, hcmds, hd, hi⟩⟩)
  · obtain ⟨-, he⟩ | hc := hw.result
    · exact .inl he
    · exact .inr (.inl ⟨hc.valid, hr, hc.phase, hc.pos, hc.code⟩)

/-- Settles O48: each bit keeps its value, is set, or is cleared, and only the last two are changes. -/
theorem validityBitsChangeAsStated : Obligations.ValidityBitsChangeAsStated := by
  intro s t _ ht
  have hi := step_initialised ht
  have hv := step_resultValid ht
  exact ⟨fun h0 h1 => by simpa [h0, h1] using hi, fun h1 h0 => by simpa [h0, h1] using hi,
    fun h0 h1 => by simpa [h0, h1] using hv, fun h1 h0 => by simpa [h0, h1] using hv⟩

end Sys2Proof.Machine

namespace Sys2Proof.Machine

/-! ### The lines of the environment (O40, O49) -/

/-- The parameter `PIN_BINDING` (00_scope.md R6, log 1). -/
def PinLayer.isRef : PinLayer → Bool
  | .abstr _ => false
  | .ref _ => true

theorem isRef_iff (pl : PinLayer) : pl.isRef = true ↔ ∃ r, pl = .ref r := by
  cases pl <;> simp [PinLayer.isRef]

@[simp] theorem afterReset_isRef (pl : PinLayer) (n : Nat) : (pl.afterReset n).isRef = pl.isRef := by
  cases pl <;> rfl

@[simp] theorem cycle_isRef (s : State) : (cycle s).pins.isRef = s.pins.isRef := by
  obtain h | ⟨r, d, h, h'⟩ := cycle_pins s
  · rw [h]
  · rw [h, h']; rfl

@[simp] theorem cycles_isRef (n : Nat) (s : State) : (cycles n s).pins.isRef = s.pins.isRef := by
  induction n generalizing s with
  | zero => rfl
  | succ n ih => rw [cycles, ih, cycle_isRef]

@[simp] theorem delay_isRef (t : Nat) (s : State) : (delay t s).pins.isRef = s.pins.isRef := by
  unfold delay
  split
  · rfl
  · exact cycles_isRef _ s

@[simp] theorem primitive_isRef (p : Prim) (s : State) : (primitive p s).2.pins.isRef = s.pins.isRef := by
  cases h : s.answerTo p with
  | none => obtain ⟨r, n, hf⟩ := primitive_unanswered h; rw [hf]
  | some a => obtain ⟨ab, hs, hq⟩ | ⟨r, d, hs, -, hq⟩ := primitive_pins h <;> rw [hs, hq] <;> rfl

/-- Only ConfigureOutput touches `DIR[clock]` (10_state.md R41). -/
theorem primitive_other_dirClock {p : Prim} {s : State} (hp : p ≠ .configureOutput) :
    (primitive p s).2.dirClock = s.dirClock := by
  cases h : s.answerTo p with
  | none => obtain ⟨r, n, hf⟩ := primitive_unanswered h; rw [hf]
  | some a =>
    rw [(primitive_dirs h).1]
    cases p with
    | configureOutput => exact absurd rfl hp
    | _ => rfl

/-- Only ConfigureInput touches `DIR[data]` (10_state.md R41). -/
theorem primitive_other_dirData {p : Prim} {s : State} (hp : p ≠ .configureInput) :
    (primitive p s).2.dirData = s.dirData := by
  cases h : s.answerTo p with
  | none => obtain ⟨r, n, hf⟩ := primitive_unanswered h; rw [hf]
  | some a =>
    rw [(primitive_dirs h).2]
    cases p with
    | configureInput => exact absurd rfl hp
    | _ => rfl

/-- In the `abstract` binding ConfigureOutput leaves the level alone; only the `reference` one has an output enable. -/
theorem primitive_configureOutput_clkLvl {s : State} (hs : s.pins.isRef = false) :
    (primitive .configureOutput s).2.clkLvl = s.clkLvl := by
  cases h : s.answerTo .configureOutput with
  | none => obtain ⟨r, n, hf⟩ := primitive_unanswered h; rw [hf]
  | some a =>
    obtain ⟨ab, hp, hq⟩ | ⟨r, d, hp, -, -⟩ := primitive_pins h
    · simp only [State.clkLvl, hp, hq]; rfl
    · simp [hp, PinLayer.isRef] at hs

theorem lines_eq_iff {s t : State} :
    t.lines = s.lines ↔ t.dirClock = s.dirClock ∧ t.dirData = s.dirData ∧ t.pins = s.pins := by
  simp [State.lines]

theorem pins_of_lines {s t : State} (h : t.lines = s.lines) : t.pins = s.pins := by
  obtain ⟨-, -, hp⟩ := lines_eq_iff.mp h
  exact hp

theorem SameLines.congr {s v t : State} (h : SameLines s v) (ht : t.lines = v.lines) : SameLines s t := by
  obtain ⟨hc, hd, hp⟩ := lines_eq_iff.mp ht
  simpa [SameLines, hc, hd, hp] using h

theorem cycle_sameLines (s : State) : SameLines s (cycle s) :=
  ⟨cycle_dirClock s, cycle_dirData s, cycle_clkLvl s, cycle_edgeArmed s⟩

theorem delay_sameLines (n : Nat) (s : State) : SameLines s (delay n s) :=
  ⟨delay_dirClock n s, delay_dirData n s, delay_clkLvl n s, delay_edgeArmed n s⟩

/-- An acceptance takes one clock cycle and issues no primitive (41_lifecycle.md R150, 70_reset_and_hazards.md R281). -/
theorem Accepts.lines {w : Option Word} {u t : State} (h : Accepts w u t) :
    t.params = u.params ∧ t.ready = u.ready ∧ t.lines = (cycle u).lines := by
  cases h <;> simp [lines_eq_iff, acceptIllegal]

/-! The positions of the primitives that touch a direction or the arming (41_lifecycle.md R151, 42_read.md R182, R187). -/

theorem prim_configureOutput {p : Pos} : p.prim = some .configureOutput ↔ p = .i1 := by cases p <;> simp [Pos.prim]
theorem prim_configureInput {p : Pos} : p.prim = some .configureInput ↔ p = .i0 := by cases p <;> simp [Pos.prim]
theorem prim_armFallingEdge {p : Pos} : p.prim = some .armFallingEdge ↔ p = .w0 := by cases p <;> simp [Pos.prim]
theorem prim_disarmEdge {p : Pos} : p.prim = some .disarmEdge ↔ p = .w5 := by cases p <;> simp [Pos.prim]

/-- A step out of reset leaves the lines alone, or issues the primitive of its position. -/
theorem step_lines {s t : State} (ht : step s = .next t) (hr : s.inReset = false) :
    SameLines s t ∨ ∃ p, s.pos.prim = some p ∧ t.lines = (primitive p (tick s)).2.lines := by
  obtain ⟨hr', -⟩ | ⟨-, -, ha⟩ | ⟨-, -, hw⟩ := step_cases ht
  · simp [hr] at hr'
  · obtain ⟨-, -, h⟩ := ha.lines
    exact .inl ((cycle_sameLines (taken s)).congr h)
  · obtain ⟨-, ⟨p, hp, h⟩ | ⟨n, h⟩⟩ := hw.lines
    · exact .inr ⟨p, hp, h⟩
    · exact .inl ((delay_sameLines n (tick s)).congr h)

/-- No step changes what is fixed at build time or by the launch premise (log 1, log 7). -/
theorem step_fixed {s t : State} (ht : step s = .next t) :
    t.params = s.params ∧ t.ready = s.ready ∧ t.pins.isRef = s.pins.isRef := by
  obtain ⟨-, rfl⟩ | ⟨-, -, ha⟩ | ⟨-, -, hw⟩ := step_cases ht
  · exact ⟨rfl, rfl, afterReset_isRef _ _⟩
  · obtain ⟨hp, hr, hl⟩ := ha.lines
    exact ⟨hp, hr, by rw [pins_of_lines hl, cycle_isRef, taken_pins]⟩
  · obtain ⟨ho, hl⟩ := hw.lines
    simp only [State.outside, Prod.mk.injEq] at ho
    obtain ⟨hp, hr, -⟩ := ho
    obtain ⟨p, -, h⟩ | ⟨n, h⟩ := hl
    · exact ⟨hp, hr, by rw [pins_of_lines h, primitive_isRef, tick_pins]⟩
    · exact ⟨hp, hr, by rw [pins_of_lines h, delay_isRef, tick_pins]⟩

/-- Settles O49: a step that changes a line issues a primitive, and each primitive touches its own line alone. -/
theorem linesChangeOnlyByTheirPrimitives : Obligations.LinesChangeOnlyByTheirPrimitives := by
  intro s t ht
  obtain ⟨hparams, hready, href⟩ := step_fixed ht
  refine ⟨hparams, hready, by rw [← isRef_iff, ← isRef_iff, href], fun hr => ?_⟩
  obtain ⟨hdc, hdd, hcl, hea⟩ | ⟨p, hp, h⟩ := step_lines ht hr
  · exact ⟨fun h => absurd hdc h, fun h => absurd hdd h, fun h => absurd hcl h, fun h => absurd hea h⟩
  obtain ⟨hdc, hdd, hpins⟩ := lines_eq_iff.mp h
  have hcl : t.clkLvl = (primitive p (tick s)).2.clkLvl := congrArg PinLayer.clkLvl hpins
  have hea : t.edgeArmed = (primitive p (tick s)).2.edgeArmed := congrArg PinLayer.edgeArmed hpins
  refine ⟨fun hne => ?_, fun hne => ?_, fun hne => ?_, fun hne => ?_⟩
  · have hpo : p = .configureOutput :=
      Classical.byContradiction fun hn => hne (hdc.trans (primitive_other_dirClock hn))
    exact prim_configureOutput.mp (hpo ▸ hp)
  · have hpi : p = .configureInput :=
      Classical.byContradiction fun hn => hne (hdd.trans (primitive_other_dirData hn))
    exact prim_configureInput.mp (hpi ▸ hp)
  · cases p with
    | writeLevel l => exact .inl ⟨l, hp⟩
    | configureOutput =>
      have href : s.pins.isRef = true := Bool.of_not_eq_false fun hb =>
        hne (hcl.trans (primitive_configureOutput_clkLvl hb))
      exact .inr ⟨prim_configureOutput.mp hp, (isRef_iff _).mp href⟩
    | _ => exact absurd (hcl.trans (primitive_other_clkLvl rfl)) hne
  · cases p with
    | armFallingEdge => exact .inl (prim_armFallingEdge.mp hp)
    | disarmEdge => exact .inr (prim_disarmEdge.mp hp)
    | _ => exact absurd (hea.trans (primitive_other_edgeArmed (by simp) (by simp))) hne

/-! ### The arming (O40) -/

/-- What `ArmInv` asks of `EDGE_ARMED` at a position (10_state.md R42). -/
def armingDue : Pos → Option PinFlag
  | .w1 | .w2 | .w3 | .w4 | .w5 => some .set
  | .b0 | .b1 | .b2 | .b3 | .b4 | .e0 | .e1 | .e2 | .e3 => some .clear
  | .idle | .i0 | .i1 | .rs0 | .rs1 | .rs2 | .rs3 | .s0 | .w0 => none

theorem armingDue_set {p : Pos} :
    armingDue p = some .set ↔ p = .w1 ∨ p = .w2 ∨ p = .w3 ∨ p = .w4 ∨ p = .w5 := by
  cases p <;> simp [armingDue]

theorem armingDue_clear {p : Pos} : armingDue p = some .clear ↔ p.phase = .shift ∨ p.phase = .endpulse := by
  cases p <;> simp [armingDue, Pos.phase]

theorem armingDue_ne_unknown (p : Pos) : armingDue p ≠ some .unknown := by
  cases p <;> simp [armingDue]

theorem armInv_iff (s : State) : ArmInv s ↔ ∀ f, armingDue s.pos = some f → s.edgeArmed = f := by
  refine ⟨fun ⟨ha, hd⟩ f hf => ?_,
    fun h => ⟨fun hp => h _ (armingDue_set.mpr hp), fun hp => h _ (armingDue_clear.mpr hp)⟩⟩
  cases f with
  | set => exact ha (armingDue_set.mp hf)
  | clear => exact hd (armingDue_clear.mp hf)
  | unknown => exact absurd hf (armingDue_ne_unknown _)

theorem armInv_of_none {s : State} (h : armingDue s.pos = none) : ArmInv s :=
  (armInv_iff s).mpr fun f hf => by simp [h] at hf

theorem armInv_of_eq {s : State} {f : PinFlag} (h : armingDue s.pos = some f) (he : s.edgeArmed = f) : ArmInv s :=
  (armInv_iff s).mpr fun _ hg => he.trans (Option.some.inj (h.symm.trans hg))

/-- A position that asks what the last one asked, and the arming has not changed. -/
theorem ArmInv.move {u t : State} (h : ArmInv u) (hp : armingDue t.pos = armingDue u.pos)
    (he : t.edgeArmed = u.edgeArmed) : ArmInv t :=
  (armInv_iff t).mpr fun f hf => he.trans ((armInv_iff u).mp h f (hp ▸ hf))

/-- Every command starts and ends with nothing asked of the arming. -/
theorem Accepts.armingDue {w : Option Word} {u t : State} (h : Accepts w u t) (hp : u.pos = .idle) :
    armingDue t.pos = none := by
  cases h with
  | quiet => rw [cycle_pos, hp]; rfl
  | _ => rfl

/-- A micro-step of a command arms, disarms, waits, ends the command, or stays where the same arming is due. -/
theorem Works.arming {u t : State} (h : Works u t) :
    (armingDue t.pos = armingDue u.pos ∧ t.edgeArmed = u.edgeArmed) ∨ armingDue t.pos = none ∨
      (t.pos = .w1 ∧ t.edgeArmed = .set) ∨ (t.pos = .b0 ∧ t.edgeArmed = .clear) := by
  have hother {p : Prim} (h1 : p ≠ .armFallingEdge := by simp) (h2 : p ≠ .disarmEdge := by simp) :=
    primitive_other_edgeArmed (s := u) h1 h2
  cases h with
  | wait p hp hr ha =>
    obtain ⟨r, n, e⟩ := primitive_unanswered ha
    rw [e]
    exact .inl ⟨rfl, rfl⟩
  | w0 v hp hr ha => exact .inr (.inr (.inl ⟨rfl, primitive_arm_edgeArmed ha⟩))
  | w5Shift v hp hd hr ha => exact .inr (.inr (.inr ⟨rfl, primitive_disarm_edgeArmed ha⟩))
  | w1 v hp | w2Low hp | w2High hp | w3Edge hp | w3None hp =>
    exact .inl ⟨by rw [hp]; rfl, hother⟩
  | w4Last hp | w4More hp | b3 hp => exact .inl ⟨by rw [hp]; rfl, delay_edgeArmed _ u⟩
  | rise p q v hp hq =>
    exact .inl ⟨by
      rw [hp]; obtain ⟨rfl, rfl⟩ | ⟨rfl, rfl⟩ | ⟨rfl, rfl⟩ | ⟨rfl, rfl⟩ := hq <;> rfl, hother⟩
  | fall p q v hp hq =>
    exact .inl ⟨by rw [hp]; obtain ⟨rfl, rfl⟩ | ⟨rfl, rfl⟩ | ⟨rfl, rfl⟩ := hq <;> rfl, hother⟩
  | hold p q hp hq =>
    exact .inl ⟨by rw [hp]; obtain ⟨rfl, rfl⟩ | ⟨rfl, rfl⟩ := hq <;> rfl, delay_edgeArmed _ u⟩
  | b4 v q hp hq =>
    exact .inl ⟨by rw [hp, hq]; split <;> rfl, hother⟩
  | waitFail p k hp hq hr ha =>
    have h1 : p ≠ .armFallingEdge := by rintro rfl; simp [prim_armFallingEdge.mp hq] at hp
    have h2 : p ≠ .disarmEdge := by rintro rfl; simp [prim_disarmEdge.mp hq] at hp
    exact .inl ⟨by obtain hp | hp | hp := hp <;> rw [hp] <;> rfl, (failIo_edgeArmed p k _).trans (hother h1 h2)⟩
  | countFall v hp =>
    obtain e | e := countPulse_cases (primitive (.writeLevel .low) u).2 <;> rw [e]
    · exact .inr (.inl rfl)
    · exact .inl ⟨by rw [hp]; rfl, hother⟩
  | count hp =>
    obtain e | e := countPulse_cases (delay u.params.tLow u) <;> rw [e]
    · exact .inr (.inl rfl)
    · exact .inl ⟨by rw [hp]; rfl, delay_edgeArmed _ u⟩
  | _ => exact .inr (.inl rfl)

/-- Settles O40: arming and disarming make what is due, and between them nothing touches the arming. -/
theorem edgeArmingKept : Obligations.EdgeArmingKept := by
  intro s t _ h ht
  obtain ⟨-, rfl⟩ | ⟨-, hp, ha⟩ | ⟨-, -, hw⟩ := step_cases ht
  · exact armInv_of_none rfl
  · exact armInv_of_none (ha.armingDue hp)
  · obtain ⟨hp, he⟩ | hn | ⟨hp, he⟩ | ⟨hp, he⟩ := hw.arming
    · exact h.move hp he
    · exact armInv_of_none hn
    · exact armInv_of_eq (by rw [hp]; rfl) he
    · exact armInv_of_eq (by rw [hp]; rfl) he

end Sys2Proof.Machine

namespace Sys2Proof.Machine

/-! ### The command in progress and hardware reset (O8, O11, O12) -/

/-- Settles O8: out of reset a running command's step is its meaning, and the phase says which command runs. -/
theorem stepContinuesTheCommand : Obligations.StepContinuesTheCommand := by
  refine ⟨fun s i => step_running, fun s => ⟨by simp, ?_, ?_, ?_, ?_⟩⟩
  · intro h; rw [State.running, h]
  · intro h; rw [State.running, h]
  · intro h; rw [State.running, h]
  · rintro (h | h | h) <;> rw [State.running, h]

theorem step_inReset {s : State} (h : s.inReset = true) : step s = .next (hardReset (tick s)) := by
  simp [step, h]

/-- Settles O11: the step is a hardware reset of the ticked state, register by register. -/
theorem hardResetClearsTheController : Obligations.HardResetClearsTheController := by
  intro s h
  refine ⟨_, step_inReset h, by simp [State.cmdReady, h], rfl, rfl, rfl, rfl, rfl, rfl, rfl, rfl, rfl, rfl, rfl, rfl,
    fun a ha => ?_, fun r hr => ?_⟩
  · constructor <;> simp [ha, PinLayer.afterReset, PinLayer.clkLvl, PinLayer.edgeArmed, AbstractPins.unknown]
  · exact ⟨_, by rw [hardReset_pins, tick_pins, hr]; rfl, rfl, rfl, rfl, rfl⟩

/-- Settles O12, by evaluating the one reset state. -/
theorem resetStateReadsAsStated : Obligations.ResetStateReadsAsStated := by
  unfold Obligations.ResetStateReadsAsStated
  decide

/-! ### The host registers (O52) -/

theorem statusWord_eq (s : State) :
    s.statusWord = (s.phase.bits.setWidth 32 <<< 8) ||| (BitVec.ofBool s.cleanupFail).setWidth 32 <<< 7 |||
      (BitVec.ofBool s.initialised).setWidth 32 <<< 6 ||| (BitVec.ofBool s.resultValid).setWidth 32 <<< 5 |||
      s.code.bits.setWidth 32 <<< 2 ||| (BitVec.ofBool s.done).setWidth 32 <<< 1 |||
      (BitVec.ofBool s.busy).setWidth 32 := by
  rw [← BitVec.setWidth_eq s.statusWord]
  simp only [State.statusWord, flagBit, BitVec.setWidth_append_eq_shiftLeft_setWidth_or,
    BitVec.shiftLeft_or_distrib, ← BitVec.shiftLeft_add]
  simp

theorem cfgWord_eq (s : State) :
    s.cfgWord = s.dpin.setWidth 32 <<< 16 ||| s.cpin.setWidth 32 <<< 8 ||| s.endpulses.setWidth 32 := by
  rw [← BitVec.setWidth_eq s.cfgWord]
  simp only [State.cfgWord, BitVec.setWidth_append_eq_shiftLeft_setWidth_or,
    BitVec.shiftLeft_or_distrib, ← BitVec.shiftLeft_add]
  simp

theorem iocauseWord_eq (s : State) :
    s.iocauseWord = s.iocause.cause.setWidth 32 <<< 8 ||| (pinBit s.iocause.pin).setWidth 32 <<< 3 |||
      s.iocause.prim.bits.setWidth 32 := by
  rw [← BitVec.setWidth_eq s.iocauseWord]
  simp only [State.iocauseWord, BitVec.setWidth_append_eq_shiftLeft_setWidth_or,
    BitVec.shiftLeft_or_distrib, ← BitVec.shiftLeft_add]
  simp

theorem hostRead_above (s : State) {n : Nat} (h : 3 < n) : s.hostRead n = .word 0 :=
  match n, h with
  | _ + 4, _ => rfl

theorem hostRead_width_le {s : State} (h : s.result.width = s.params.resultW) (n : Nat) :
    (s.hostRead n).width ≤ max 32 s.params.resultW :=
  match n with
  | 1 => Nat.le_trans (Nat.le_of_eq h) (Nat.le_max_right _ _)
  | 0 | 2 | 3 | _ + 4 => Nat.le_max_left _ _

/-- Settles O52: each register is its fields, one above the other, and the tables are evaluated. -/
theorem hostRegisterLayout : Obligations.HostRegisterLayout :=
  ⟨fun s => ⟨congrArg Reg.word (statusWord_eq s), rfl, congrArg Reg.word (cfgWord_eq s),
    congrArg Reg.word (iocauseWord_eq s), fun _ => hostRead_above s,
    fun h => ⟨h.width, hostRead_width_le h.width⟩⟩,
    by decide, by decide, by decide, rfl, rfl⟩

/-! ### A READ forgets what earlier commands left (O60) -/

/-- `s` with the registers of `u` that an earlier command may have left (10_state.md R35). -/
def withPast (u s : State) : State :=
  { s with acc := u.acc, bitcnt := u.bitcnt, pulsecnt := u.pulsecnt, pollcnt := u.pollcnt, pend := u.pend,
           busy := u.busy, done := u.done, code := u.code, resultValid := u.resultValid,
           cleanupFail := u.cleanupFail, iocause := u.iocause, rspValid := u.rspValid }

/-- The pin layer's clock reads none of these registers. -/
theorem cycle_withPast (u s : State) : cycle (withPast u s) = withPast u (cycle s) := by
  obtain ⟨⟩ := s
  unfold cycle drawDout withPast
  simp only
  split
  · rfl
  · split <;> rfl

/-- READ's acceptance writes every one of them (42_read.md R181, 41_lifecycle.md R150). -/
theorem begin_read_withPast (u s : State) :
    begin .w0 (readClear (accepted (taken (withPast u s)))) = begin .w0 (readClear (accepted (taken s))) := by
  have h : cycle (taken (withPast u s)) = withPast (taken u) (cycle (taken s)) :=
    cycle_withPast (taken u) (taken s)
  rw [accepted, accepted, h]
  simp [begin, readClear, withPast]

/-- READ's acceptance on an initialised block (42_read.md R181). -/
theorem readAccept_initialised {s : State} (hi : s.initialised = true) :
    readAccept s = unlessShared s (if s.ready = true then .next (begin .w0 (readClear (accepted s)))
      else .refused .pinLayerNotReady) := by
  simp [readAccept, whenInitialised, hi, launch]

theorem readAccept_withPast (u : State) {s : State} (hi : s.initialised = true) :
    readAccept (taken (withPast u s)) = readAccept (taken s) := by
  rw [readAccept_initialised (s := taken s) hi, readAccept_initialised (s := taken (withPast u s)) hi,
    begin_read_withPast]
  rfl

/-- An idle controller out of reset runs the command of the word on its port (20_memory.md R67, 30_encoding.md R97). -/
theorem step_offered {s : State} {w : Word} {rest : List (Option Word)} {i : Instr} (hp : s.pos = .idle)
    (hr : s.inReset = false) (hc : s.cmds = some w :: rest) (hd : decode w = .ok i) : step s = exec i (taken s) := by
  have ho : offered (tick s) = (some w, taken s) := by simp [offered_cons (s := tick s) hc, taken, hc]
  simp [step, hr, (running_eq_none s).mpr hp, stepIdle, ho, hd]

/-- Settles O60: the step that accepts the READ is the same on both machines, so the runs are. -/
theorem readForgetsEarlierCommands : Obligations.ReadForgetsEarlierCommands := by
  intro n s u cs hp hr hi hc hu
  have hstep (v : State) (hvp : v.pos = .idle) (hvr : v.inReset = false) (hvc : v.cmds = some (encode .read) :: cs) :
      step v = readAccept (taken v) := by
    rw [step_offered hvp hvr hvc (i := .read) rfl]
    simp only [exec, execRead, taken_pos, hvp]
  have hu : u = withPast u s := hu
  apply core_run_congr
  rw [hstep s hp hr hc, hu, hstep (withPast u s) hp hr hc, readAccept_withPast u hi]

end Sys2Proof.Machine

/-! PROOF. The ports and the pin layer (20_memory.md): the command and response ports, the pin layer edge by edge, and the
`reference` binding as a refinement of the `abstract` one (O7, O9, O10, O28, O51, O55, O56, O59). -/

namespace Sys2Proof.Machine

/-! ### The command port (O7, O9, O10) -/

theorem cmdReady_iff (s : State) : s.cmdReady = true ↔ s.pos = .idle ∧ s.inReset = false := by
  simp [State.cmdReady]

/-- Settles O7: taking the word from the port leaves the rest of it. -/
theorem stepRunsTheOfferedCommand : Obligations.StepRunsTheOfferedCommand := by
  intro s w rest i hready hcmds hdecode
  obtain ⟨hidle, hreset⟩ := (cmdReady_iff s).mp hready
  rw [step_offered hidle hreset hcmds hdecode, taken, hcmds, List.tail_cons]

/-- Settles O9: neither hardware reset nor a micro-step of a command touches the port. -/
theorem busyAcceptsNothing : Obligations.BusyAcceptsNothing := by
  intro s t hbusy ht
  rw [phase_eq, Ne, phase_idle] at hbusy
  refine ⟨Bool.eq_false_iff.mpr fun h => hbusy ((cmdReady_iff s).mp h).1, ?_⟩
  obtain ⟨-, rfl⟩ | ⟨-, hidle, -⟩ | ⟨-, -, hw⟩ := step_cases ht
  · rfl
  · exact absurd hidle hbusy
  · obtain ⟨houtside, -⟩ := hw.lines
    simp only [State.outside, Prod.mk.injEq] at houtside
    obtain ⟨-, -, hcmds, -⟩ := houtside
    exact hcmds

/-- With no word on the port an idle step is one clock cycle (20_memory.md R67). -/
theorem step_quiet {s : State} (hready : s.cmdReady = true) (hcmds : s.cmds.head?.join = none) :
    step s = .next (cycle (taken s)) := by
  obtain ⟨hidle, hreset⟩ := (cmdReady_iff s).mp hready
  have hoffered : offered (tick s) = (none, taken s) := by rw [offered_eq, tick_cmds, hcmds]; rfl
  simp [step, hreset, (running_eq_none s).mpr hidle, stepIdle, hoffered]

/-- Settles O10: the step is one clock cycle, which no register sees. -/
theorem idleWaitsForACommand : Obligations.IdleWaitsForACommand := by
  intro s hready hcmds
  have hnone : s.cmds.head?.join = none := by
    obtain h | ⟨rest, h⟩ := hcmds <;> simp [h]
  exact ⟨_, step_quiet hready hnone, by simp [State.datapath], by simp [State.counters], by simp [State.config],
    by simp [State.validity], by simp [State.outcome], by simp, cycle_sameLines (taken s), by simp, by simp, by simp,
    by simp, by simp⟩

/-! ### A primitive without an answer (O28) -/

/-- A micro-step at the position of a primitive issues it (20_memory.md R65). -/
theorem exec_issues {s : State} {i : Instr} {p : Prim} (hi : s.running = some i) (hp : s.pos.prim = some p)
    (hpend : s.pos = .w5 → s.pend ≠ .none) : ∃ k, exec i s = issue p s k := by
  unfold State.running at hi
  rw [phase_eq] at hi
  cases e : s.pos <;> rw [e] at hi hp hpend <;> cases hp <;> cases hi
  case w5 =>
    cases hd : s.pend with
    | none => exact absurd hd (hpend rfl)
    | ready | timeout | ioerr => exact ⟨_, by simp only [exec, execRead, e, readW5, hd]; rfl⟩
  case i0 | i1 => exact ⟨_, by simp only [exec, execInit, e]; rfl⟩
  case rs0 | rs1 | rs3 => exact ⟨_, by simp only [exec, execReset, e]; rfl⟩
  case s0 => exact ⟨_, by simp only [exec, execShutdown, e]; rfl⟩
  case w0 | w1 | w2 | w3 | b0 | b2 | b4 | e0 | e2 => exact ⟨_, by simp only [exec, execRead, e]; rfl⟩

/-- Settles O28: the micro-step is the primitive alone, which without an answer is only a draw. -/
theorem unansweredPrimitiveWaits : Obligations.UnansweredPrimitiveWaits := by
  intro s i p hready hi hp hpend hnone
  obtain ⟨k, hk⟩ := exec_issues hi hp hpend
  obtain ⟨r, n, hframe⟩ := primitive_unanswered hnone
  have hnext : exec i s = .next { s with replies := r, draws := n } := by
    rw [hk, issue_ready hready, hnone, ← hframe]
  exact ⟨_, hnext, rfl, ⟨rfl, rfl, rfl, rfl, rfl, rfl⟩, rfl, rfl, rfl⟩

/-! ### One cycle of the `reference` pin layer (O56) -/

@[simp] theorem edge_doutM (r : ReferencePins) (d : Bool) : (r.edge d).doutM = d := rfl
@[simp] theorem edge_doutS (r : ReferencePins) (d : Bool) : (r.edge d).doutS = r.doutM := rfl
@[simp] theorem edge_doutQ (r : ReferencePins) (d : Bool) : (r.edge d).doutQ = r.doutS := rfl
@[simp] theorem edge_pdSck (r : ReferencePins) (d : Bool) : (r.edge d).pdSck = r.pdSck := rfl
@[simp] theorem edge_pdSckOe (r : ReferencePins) (d : Bool) : (r.edge d).pdSckOe = r.pdSckOe := rfl
@[simp] theorem edge_edgeArmed (r : ReferencePins) (d : Bool) : (r.edge d).edgeArmed = r.edgeArmed := rfl

/-- A clock edge takes the latch with the falling edge it sees while armed (20_memory.md R66). -/
theorem edge_edgeLatch (r : ReferencePins) (d : Bool) : (r.edge d).edgeLatch = true ↔
    r.edgeLatch = true ∨ r.edgeArmed = true ∧ r.doutQ = true ∧ r.doutS = false := by
  simp [ReferencePins.edge, and_assoc]

/-- Four edges after a High level of `dout` the falling edge that follows it is in the latch (20_memory.md R66). -/
theorem foldl_edge_falling {r : ReferencePins} (h : r.edgeArmed = true) (x y : Bool) :
    ([true, false, x, y].foldl ReferencePins.edge r).edgeLatch = true :=
  (edge_edgeLatch _ y).mpr (.inr ⟨h, rfl, rfl⟩)

/-- Settles O56: a cycle is one edge, a primitive is one edge under its own writes. -/
theorem referencePinLayerCycle : Obligations.ReferencePinLayerCycle := by
  intro s r d ds hpins hdout
  refine ⟨?_, fun p => ?_, fun x y rest hd hds harmed => ?_⟩
  · rw [cycle_ref hpins hdout]
    exact ⟨_, rfl, rfl, rfl, rfl, rfl, rfl, rfl, rfl, edge_edgeLatch r d⟩
  · obtain ⟨hafter, hrest⟩ := primitive_ref_cons hpins hdout p
    obtain ⟨hanswer, -⟩ := answerTo_ref hpins p
    refine ⟨r.after p d, hafter, hrest, ?_⟩
    cases p with
    | writeLevel l =>
      cases l <;> simp [hanswer, ReferencePins.after, ReferencePins.writes, ReferencePins.answer, edge_edgeLatch]
    | _ => simp [hanswer, ReferencePins.after, ReferencePins.writes, ReferencePins.answer, edge_edgeLatch]
  · subst hd hds
    rw [show cycles 4 s = _ from cycles_ref (ds := [true, false, x, y]) hpins hdout]
    exact ⟨_, rfl, foldl_edge_falling harmed x y⟩


/-! ### No failure in the `reference` binding (O59) -/

/-- What `NoFailure` says of the registers (60_exceptions.md R222). -/
def RecordsNoFailure (s : State) : Prop := s.pend ≠ .ioerr ∧ s.code ≠ .ioError ∧ s.cleanupFail = false

theorem noFailure_iff (s : State) : NoFailure s ↔ (∃ r, s.pins = .ref r) ∧ RecordsNoFailure s :=
  ⟨fun h => ⟨h.binding, h.pend, h.code, h.cleanup⟩,
    fun ⟨hbinding, hpend, hcode, hcleanup⟩ => ⟨hbinding, hpend, hcode, hcleanup⟩⟩

theorem NoFailure.answerTo_ne_fail {s : State} (h : NoFailure s) (p : Prim) (k : Cause) :
    s.answerTo p ≠ some (.fail k) := by
  obtain ⟨r, hr⟩ := h.binding
  obtain ⟨hanswer, v, hv⟩ := answerTo_ref hr p
  simp [hanswer, hv]

theorem Accepts.recordsNoFailure {w : Option Word} {u t : State} (ha : Accepts w u t) (h : NoFailure u) :
    RecordsNoFailure t := by
  unfold RecordsNoFailure
  cases ha with
  | quiet => simp [h.pend, h.code, h.cleanup]
  | read => simp
  | _ => simp [h.pend, acceptIllegal]

/-- A command records a failure only where a primitive fails, or with a failure pending. -/
theorem Works.recordsNoFailure {u t : State} (hw : Works u t) (h : NoFailure u) : RecordsNoFailure t := by
  have hpend := h.pend
  have hcode := h.code
  have hcleanup := h.cleanup
  unfold RecordsNoFailure
  cases hw with
  | initFail p k hp hq hr ha | waitFail p k hp hq hr ha | fail p k hp hq hr ha | w5Disarm k hp hd hr ha
  | w5EndFail c k hp hd hr ha => exact absurd ha (h.answerTo_ne_fail _ _)
  | w5End c v hp hd =>
    obtain ⟨-, rfl⟩ | ⟨hd, -⟩ := hd
    · simp [hcleanup]
    · exact absurd hd hpend
  | countFall v hp =>
    obtain e | e := countPulse_cases (primitive (.writeLevel .low) u).2 <;>
      simp [e, readDone, hpend, hcode, hcleanup]
  | count hp =>
    obtain e | e := countPulse_cases (delay u.params.tLow u) <;> simp [e, readDone, hpend, hcode, hcleanup]
  | _ => simp [hpend, hcode, hcleanup]

/-- Settles O59: the binding stays, an acceptance records no IoError, and a running command meets no failure. -/
theorem referenceNeverFails : Obligations.ReferenceNeverFails := by
  intro s t h ht
  rw [noFailure_iff]
  constructor
  · obtain ⟨-, -, href⟩ := step_fixed ht
    rw [← isRef_iff, href, isRef_iff]
    exact h.binding
  · obtain ⟨-, rfl⟩ | ⟨-, -, ha⟩ | ⟨-, -, hw⟩ := step_cases ht
    · simp [RecordsNoFailure]
    · exact ha.recordsNoFailure { h with }
    · exact hw.recordsNoFailure { h with }

/-! ### One response for each command (O51) -/

/-- The log `m` is `l` with at most one event more (00_scope.md R10). -/
def GrowsByEvent (l m : List Obs) : Prop := ∃ tr, tr.length ≤ 1 ∧ (∀ o ∈ tr, o.isEvent = true) ∧ m = tr ++ l

theorem GrowsByEvent.refl (l : List Obs) : GrowsByEvent l l := ⟨[], by simp, by simp, rfl⟩

theorem GrowsByEvent.cons {o : Obs} (h : o.isEvent = true) (l : List Obs) : GrowsByEvent l (o :: l) :=
  ⟨[o], by simp, by simpa using h, rfl⟩

theorem primitive_growsByEvent (p : Prim) (s : State) : GrowsByEvent s.log (primitive p s).2.log := by
  cases h : s.answerTo p with
  | none =>
    obtain ⟨r, n, hf⟩ := primitive_unanswered h
    rw [hf]
    exact .refl _
  | some a =>
    rw [primitive_log h]
    exact .cons rfl _

theorem delay_growsByEvent (n : Nat) (s : State) : GrowsByEvent s.log (delay n s).log := by
  rw [delay_log]
  split
  · exact .refl _
  · exact .cons rfl _

/-- A micro-step that begins with log `l` ends the command, over at most one event (60_exceptions.md R230). -/
def Responds (l : List Obs) (t : State) : Prop := ∃ c v, t = complete c v ∧ GrowsByEvent l v.log

/-- A micro-step that begins with log `l` raises no response and adds at most one event. -/
def Silent (l : List Obs) (t : State) : Prop := t.rspValid = false ∧ GrowsByEvent l t.log

/-- An acceptance completes a command or raises nothing (20_memory.md R68). -/
theorem Accepts.responds {w : Option Word} {u t : State} (h : Accepts w u t) (hu : u.rspValid = false) :
    Responds u.log t ∨ Silent u.log t := by
  have hlog : GrowsByEvent u.log (accepted u).log := by rw [accepted_log]; exact .refl _
  cases h with
  | quiet => exact .inr ⟨by simpa using hu, by rw [cycle_log]; exact .refl _⟩
  | init | reset | shutdown | read => exact .inr ⟨by simpa using hu, hlog⟩
  | illegal | initClock | initData | notInitialised | setgain | setgainZero => exact .inl ⟨_, _, rfl, hlog⟩

/-- A command in progress responds exactly where it ends (20_memory.md R68, R71). -/
theorem Works.responds {u t : State} (h : Works u t) (hu : u.rspValid = false) (hi : u.pos ≠ .idle) :
    Responds u.log t ∨ Silent u.log t ∧ t.pos ≠ .idle := by
  have hp (p : Prim) : Silent u.log (primitive p u).2 := ⟨by simpa using hu, primitive_growsByEvent p u⟩
  have hd (n : Nat) : Silent u.log (delay n u) := ⟨by simpa using hu, delay_growsByEvent n u⟩
  cases h with
  | wait p => exact .inr ⟨hp p, by simpa using hi⟩
  | i1 | rs3 | s0 | w5End => exact .inl ⟨_, _, rfl, (hp _).2⟩
  | initFail p | fail p => exact .inl ⟨_, _, rfl, by simpa using (hp p).2⟩
  | w5Disarm | w5EndFail => exact .inl ⟨_, _, rfl, by simpa using (hp .disarmEdge).2⟩
  | waitFail p => exact .inr ⟨by simpa [Silent, waitFailed] using hp p, by simp [waitFailed]⟩
  | countFall =>
    obtain e | e := countPulse_cases (primitive (.writeLevel .low) u).2 <;> rw [e]
    · exact .inl ⟨_, _, rfl, (hp _).2⟩
    · exact .inr ⟨hp _, by simp⟩
  | count =>
    obtain e | e := countPulse_cases (delay u.params.tLow u) <;> rw [e]
    · exact .inl ⟨_, _, rfl, (hd _).2⟩
    · exact .inr ⟨hd _, by simp⟩
  | rise p q v _ hq => exact .inr ⟨hp _, by obtain ⟨-, rfl⟩ | ⟨-, rfl⟩ | ⟨-, rfl⟩ | ⟨-, rfl⟩ := hq <;> simp⟩
  | fall p q v _ hq => exact .inr ⟨hp _, by obtain ⟨-, rfl⟩ | ⟨-, rfl⟩ | ⟨-, rfl⟩ := hq <;> simp⟩
  | hold p q _ hq => exact .inr ⟨hd _, by obtain ⟨-, rfl⟩ | ⟨-, rfl⟩ := hq <;> simp⟩
  | b4 v q _ hq => exact .inr ⟨hp _, by rw [hq]; split <;> simp⟩
  | rs2 | w4Last | w4More | b3 => exact .inr ⟨hd _, by simp⟩
  | i0 | rs0 | rs1 | w0 | w1 | w2Low | w2High | w3Edge | w3None | w5Shift => exact .inr ⟨hp _, by simp⟩

/-- The response of a command that ends carries what the registers then hold (20_memory.md R68). -/
theorem Responds.raised {l : List Obs} {t : State} (h : Responds l t) :
    t.rspValid = true ∧ t.pos = .idle ∧ t.done = true ∧ ∃ tr, tr.length ≤ 1 ∧ (∀ o ∈ tr, o.isEvent = true) ∧
      t.log = .response ⟨t.code, t.cleanupFail, t.result⟩ :: (tr ++ l) := by
  obtain ⟨c, v, rfl, tr, hlen, hevents, hlog⟩ := h
  exact ⟨rfl, rfl, rfl, tr, hlen, hevents, by rw [complete_log, hlog]; rfl⟩

/-- Settles O51: a step resets, responds or is silent, and a running command is silent exactly where it goes on. -/
theorem oneResponsePerCommand : Obligations.OneResponsePerCommand := by
  intro s t _ ht
  have hcases : (s.inReset = true ∧ t = hardReset (tick s)) ∨ Responds s.log t ∨
      Silent s.log t ∧ (s.pos ≠ .idle → t.pos ≠ .idle) := by
    obtain hreset | ⟨-, hp, ha⟩ | ⟨-, hp, hw⟩ := step_cases ht
    · exact .inl hreset
    · exact .inr ((ha.responds (taken_rspValid s)).imp_right fun h => ⟨h, fun hne => absurd hp hne⟩)
    · exact .inr ((hw.responds (tick_rspValid s) hp).imp_right fun ⟨h, hpos⟩ => ⟨h, fun _ => hpos⟩)
  obtain ⟨hr, rfl⟩ | h | ⟨⟨hv, tr, hlen, hevents, hlog⟩, hpos⟩ := hcases
  · exact ⟨by simp, fun _ => ⟨[.hardReset], by simp, by simp, rfl⟩, by simp [hr]⟩
  · obtain ⟨hv, hidle, hresponse⟩ := h.raised
    exact ⟨fun _ => ⟨hidle, hresponse⟩, by simp [hv], by simp [hv, hidle]⟩
  · exact ⟨by simp [hv], fun _ => ⟨tr, hlen, fun o ho => .inl (hevents o ho), hlog⟩,
      fun _ hne => by simp [hv, hpos (by simpa using hne)]⟩

end Sys2Proof.Machine

namespace Sys2Proof.Machine

/-! ### The `reference` binding refines the `abstract` one (O55) -/

/-- `s` with the pin layer and the draws of `e` (20_memory.md R65, R66). -/
def withEnv (e s : State) : State :=
  { s with pins := e.pins, replies := e.replies, dout := e.dout, draws := e.draws }

/-- A covering state is the covered one with another environment, of which nothing wrong is known. -/
theorem refines_iff {c a : State} :
    Refines c a ↔ ∃ e, a = withEnv e c ∧ (∃ ab, e.pins = .abstr ab) ∧ PinsCovered c e := by
  constructor
  · rintro ⟨⟨hdata, hcounters, hconfig, hvalidity, houtcome, houtside⟩, hpos, hrsp, ⟨hdc, hdd⟩, hlog, hbind, hcov⟩
    refine ⟨a, ?_, hbind, hcov⟩
    simp only [State.datapath, State.counters, State.config, State.validity, State.outcome, State.outside,
      Prod.mk.injEq] at hdata hcounters hconfig hvalidity houtcome houtside
    cases a
    cases c
    simp_all [withEnv]
  · rintro ⟨e, rfl, hbind, ⟨hclk, harmed⟩⟩
    exact ⟨⟨rfl, rfl, rfl, rfl, rfl, rfl⟩, rfl, rfl, ⟨rfl, rfl⟩, rfl, hbind, ⟨hclk, harmed⟩⟩

/-- `k` neither reads nor writes the pin layer or the draws. -/
def PinBlind (k : State → State) : Prop := ∀ e s, k (withEnv e s) = withEnv e (k s)

theorem PinBlind.pins {k : State → State} (hk : PinBlind k) (s : State) : (k s).pins = s.pins :=
  (congrArg State.pins (hk s s)).trans rfl

namespace Refines

variable {c a : State}

/-- What is read from outside the pin layer is the same in both. -/
theorem agree {α : Type} (h : Refines c a) (f : State → α) (hf : ∀ e s, f (withEnv e s) = f s) : f a = f c := by
  obtain ⟨e, rfl, -⟩ := refines_iff.mp h
  exact hf e c

theorem map (h : Refines c a) (k : State → State) (hk : PinBlind k) : Refines (k c) (k a) := by
  obtain ⟨e, rfl, hab, ⟨hclk, harmed⟩⟩ := refines_iff.mp h
  refine refines_iff.mpr ⟨e, hk e c, hab, ?_, ?_⟩
  · simpa [hk.pins] using hclk
  · simpa [hk.pins] using harmed

/-- The answers to come are the environment's. -/
theorem withReplies (h : Refines c a) (rp : List (Option Answer)) : Refines c { a with replies := rp } :=
  ⟨h.registers, h.pos, h.rspValid, h.dirs, h.log, h.binding, ⟨h.covered.clk, h.covered.armed⟩⟩

/-- A clock cycle changes only what the `abstract` binding does not see (20_memory.md R66). -/
theorem cycle (h : Refines c a) : Refines (cycle c) (cycle a) := by
  obtain ⟨ab, hab⟩ := h.binding
  obtain ⟨e, rfl, hbind, ⟨hclk, harmed⟩⟩ := refines_iff.mp h
  rw [cycle_abstr hab]
  refine refines_iff.mpr ⟨e, ?_, hbind, ?_, ?_⟩
  · obtain ⟨pl, d, n, hframe⟩ := cycle_frame c
    rw [hframe]
    rfl
  · rwa [cycle_clkLvl]
  · rwa [cycle_edgeArmed]

theorem cycles (h : Refines c a) (n : Nat) : Refines (cycles n c) (cycles n a) := by
  induction n generalizing c a with
  | zero => exact h
  | succ n ih => exact ih h.cycle

theorem delay (h : Refines c a) (t : Nat) : Refines (delay t c) (delay t a) := by
  unfold Machine.delay
  split
  · exact h
  · rw [h.agree State.params fun _ _ => rfl]
    exact (h.cycles _).map (fun s => { s with log := .delay t :: s.log }) fun _ _ => rfl

theorem accepted (h : Refines c a) : Refines (accepted c) (accepted a) :=
  h.cycle.map (fun s => { s with done := false, code := .ok, cleanupFail := false, iocause := .clear }) fun _ _ => rfl

theorem hardReset (h : Refines c a) : Refines (hardReset c) (hardReset a) := by
  obtain ⟨ab, hab⟩ := h.binding
  obtain ⟨e, rfl, -, -⟩ := refines_iff.mp h
  refine refines_iff.mpr ⟨Machine.hardReset (withEnv e c), rfl, ⟨.unknown, by simp [hab, PinLayer.afterReset]⟩, ?_, ?_⟩
  · exact .inl (by simp [hab, PinLayer.afterReset, PinLayer.clkLvl, AbstractPins.unknown])
  · exact .inl (by simp [hab, PinLayer.afterReset, PinLayer.edgeArmed, AbstractPins.unknown])

end Refines

/-! #### A primitive answered alike -/

@[simp] theorem settle_answer (ps : Params) (r : ReferencePins) (p : Prim) :
    p.settle ps (r.answer p) = r.answer p := by
  cases p <;> rfl

/-- ConfigureOutput shows the level of the output register where it was not driven before (20_memory.md R66). -/
theorem primitive_configureOutput_ref_clkLvl {s : State} {r : ReferencePins} (h : s.pins = .ref r) :
    s.clkLvl = .unknown ∨ (primitive .configureOutput s).2.clkLvl = s.clkLvl := by
  rw [primitive_ref h]
  cases ho : r.pdSckOe with
  | false => exact .inl (by simp [h, PinLayer.clkLvl, ho])
  | true =>
    exact .inr (by simp [h, PinLayer.clkLvl, ho, ReferencePins.after, ReferencePins.writes])

/-- A primitive answered alike in both bindings keeps the covering; a write needs a driven line, where the `reference`
line shows what it writes (20_memory.md R66). -/
theorem PinsCovered.primitive {c a : State} {r : ReferencePins} {ab : AbstractPins} {p : Prim} {v : Bool}
    (h : PinsCovered c a) (hc : c.pins = .ref r) (ha : a.pins = .abstr ab)
    (hd : ∀ l, p = .writeLevel l → r.pdSckOe = true)
    (hcv : c.answerTo p = some (.ok v)) (hav : a.answerTo p = some (.ok v)) :
    PinsCovered (primitive p c).2 (primitive p a).2 := by
  constructor
  · cases p with
    | writeLevel l =>
      rw [primitive_write_clkLvl hcv (by rw [hc]; exact hd l rfl), primitive_write_clkLvl hav (by rw [ha]; rfl)]
      exact .inr rfl
    | configureOutput =>
      rw [primitive_configureOutput_clkLvl (by rw [ha]; rfl)]
      obtain hu | he := primitive_configureOutput_ref_clkLvl hc
      · exact .inl (h.clk.elim id fun e => e.trans hu)
      · rw [he]
        exact h.clk
    | _ =>
      rw [primitive_other_clkLvl rfl, primitive_other_clkLvl rfl]
      exact h.clk
  · cases p with
    | armFallingEdge => exact .inr (by rw [primitive_arm_edgeArmed hcv, primitive_arm_edgeArmed hav])
    | disarmEdge => exact .inr (by rw [primitive_disarm_edgeArmed hcv, primitive_disarm_edgeArmed hav])
    | _ =>
      rw [primitive_other_edgeArmed (by simp) (by simp), primitive_other_edgeArmed (by simp) (by simp)]
      exact h.armed

/-- With the answer of the registers laid down, the primitive is answered alike and the covering stays. -/
theorem Refines.primitive {c a : State} {r : ReferencePins} {p : Prim} (h : Refines c a) (hc : c.pins = .ref r)
    (hreply : a.replies = [some (r.answer p)]) (hd : ∀ l, p = .writeLevel l → r.pdSckOe = true) :
    a.answerTo p = some (r.answer p) ∧ Refines (primitive p c).2 (primitive p a).2 := by
  obtain ⟨ab, ha⟩ := h.binding
  obtain ⟨hcv, v, hv⟩ := answerTo_ref hc p
  have hav : a.answerTo p = some (r.answer p) := by rw [answerTo_reply ha hreply, settle_answer]
  have hcov := h.covered.primitive hc ha hd (hv ▸ hcv) (hv ▸ hav)
  refine ⟨hav, refines_iff.mpr ⟨(Machine.primitive p a).2, ?_, ?_, hcov⟩⟩
  · obtain ⟨e, rfl, -, -⟩ := refines_iff.mp h
    obtain ⟨d, n, hdraw⟩ := drawDout_frame c
    rw [primitive_reply ha hreply, primitive_ref hc, settle_answer, hdraw]
    rfl
  · rw [primitive_reply ha hreply]
    exact ⟨_, rfl⟩

/-! #### The meanings, command by command -/

/-- Every next state of the first outcome is covered by the next state of the second. -/
def Matched (x y : Out) : Prop := ∀ c', x = .next c' → ∃ a', y = .next a' ∧ Refines c' a'

theorem Matched.next {c a : State} (h : Refines c a) : Matched (.next c) (.next a) := by
  rintro _ ⟨⟩
  exact ⟨a, rfl, h⟩

theorem Matched.refused (e : Refusal) (y : Out) : Matched (.refused e) y := fun _ h => nomatch h

theorem Matched.fault (e : Fault) (y : Out) : Matched (.fault e) y := fun _ h => nomatch h

/-- `a` covers `c`, and its pin layer will answer the primitive due as the registers `r` of `c` do; a write that is due
finds the line driven. -/
structure Prompted (r : ReferencePins) (c a : State) : Prop where
  refines : Refines c a
  pins : c.pins = .ref r
  reply : ∀ p, c.pos.prim = some p → a.replies = [some (r.answer p)]
  driven : ∀ l, c.pos.prim = some (.writeLevel l) → r.pdSckOe = true

namespace Prompted

variable {r : ReferencePins} {c a : State} {p : Prim} {q : Pos}

/-- A micro-step that issues the primitive due goes on alike; what it does with a failure is not asked, since none comes
(20_memory.md R66). -/
theorem issue (h : Prompted r c a) {k : Answer → State → State} (hpos : c.pos = q) (hp : q.prim = some p)
    (hk : ∀ v, PinBlind (k (.ok v))) : Matched (issue p c k) (issue p a k) := by
  subst hpos
  intro c' hc
  obtain ⟨hready, -⟩ := issue_next hc
  rw [issue_ref hready h.pins] at hc
  obtain ⟨hanswer, href⟩ := h.refines.primitive h.pins (h.reply p hp) fun l e => h.driven l (e ▸ hp)
  obtain ⟨-, v, hv⟩ := answerTo_ref h.pins p
  rw [issue_answered ((h.refines.agree State.ready fun _ _ => rfl).trans hready) hanswer]
  rw [hv] at hc ⊢
  exact Matched.next (href.map _ (hk v)) c' hc

theorem writeClock (h : Prompted r c a) {l : Level} {k : State → State} (hpos : c.pos = q)
    (hp : q.prim = some (.writeLevel l)) (hk : PinBlind k) : Matched (writeClock l k c) (writeClock l k a) :=
  h.issue hpos hp fun _ => hk

end Prompted

theorem Refines.unlessShared {c a : State} {x y : Out} (h : Refines c a) (hk : Matched x y) :
    Matched (unlessShared c x) (unlessShared a y) := by
  unfold Machine.unlessShared
  rw [h.agree State.shared fun _ _ => rfl]
  split
  · exact .refused _ _
  · exact hk

theorem Refines.whenInitialised {c a : State} {k : State → Out} (h : Refines c a)
    (hk : Matched (k (Machine.accepted c)) (k (Machine.accepted a))) :
    Matched (whenInitialised c k) (whenInitialised a k) := by
  refine h.unlessShared ?_
  rw [h.agree State.initialised fun _ _ => rfl]
  split
  · exact hk
  · exact .next (h.accepted.map _ fun _ _ => rfl)

theorem Refines.launch {c a : State} (h : Refines c a) (p : Pos) : Matched (launch p c) (launch p a) := by
  unfold Machine.launch
  rw [h.agree State.ready fun _ _ => rfl]
  split
  · exact .next (h.map _ fun _ _ => rfl)
  · exact .refused _ _

/-- A micro-step that is one of the parameters' delays. -/
theorem Refines.delayThen {c a : State} (h : Refines c a) (t : Params → Nat) {k : State → State} (hk : PinBlind k) :
    Matched (.next (k (Machine.delay (t c.params) c))) (.next (k (Machine.delay (t a.params) a))) := by
  rw [h.agree State.params fun _ _ => rfl]
  exact .next ((h.delay _).map k hk)

theorem Refines.initAccept {c a : State} (h : Refines c a) (x y : PinId) :
    Refines (initAccept x y c) (initAccept x y a) := by
  unfold Machine.initAccept
  rw [h.agree State.params fun _ _ => rfl]
  split
  · split
    · exact h.accepted.map
        (fun s => begin .i0 { s with initialised := false, resultValid := false, cpin := x, dpin := y }) fun _ _ => rfl
    · exact h.accepted.map (fun s => unresolved .data { s with initialised := false, resultValid := false })
        fun _ _ => rfl
  · exact h.accepted.map (fun s => unresolved .clock { s with initialised := false, resultValid := false })
      fun _ _ => rfl

theorem countPulse_pinBlind : PinBlind countPulse := by
  intro e s
  unfold countPulse
  rw [apply_ite (withEnv e)]
  rfl

theorem Prompted.execInit {r : ReferencePins} {c a : State} (h : Prompted r c a) (x y : PinId) :
    Matched (execInit x y c) (execInit x y a) := by
  unfold Machine.execInit
  rw [h.refines.pos]
  split
  · refine h.refines.unlessShared ?_
    rw [h.refines.agree State.ready fun _ _ => rfl, h.refines.agree (initNeedsPins x y) fun _ _ => rfl]
    split
    · exact .next (h.refines.initAccept x y)
    · exact .refused _ _
  · next hp => exact h.issue hp rfl fun _ _ _ => rfl
  · next hp => exact h.issue hp rfl fun _ _ _ => rfl
  · exact .next h.refines

theorem Prompted.execReset {r : ReferencePins} {c a : State} (h : Prompted r c a) :
    Matched (execReset c) (execReset a) := by
  unfold Machine.execReset
  rw [h.refines.pos]
  split
  · exact h.refines.whenInitialised (h.refines.accepted.launch _)
  · next hp => exact h.writeClock hp rfl fun _ _ => rfl
  · next hp => exact h.writeClock hp rfl fun _ _ => rfl
  · exact h.refines.delayThen Params.tResetHold fun _ _ => rfl
  · next hp => exact h.writeClock hp rfl fun _ _ => rfl
  · exact .next h.refines

theorem Prompted.execShutdown {r : ReferencePins} {c a : State} (h : Prompted r c a) :
    Matched (execShutdown c) (execShutdown a) := by
  unfold Machine.execShutdown
  rw [h.refines.pos]
  split
  · exact h.refines.whenInitialised (h.refines.accepted.launch _)
  · next hp => exact h.writeClock hp rfl fun _ _ => rfl
  · exact .next h.refines

theorem setgainAccept_pinBlind (n : BitVec 2) : PinBlind (setgainAccept n) := by
  intro e s
  unfold setgainAccept
  rw [apply_ite (withEnv e)]
  rfl

theorem Prompted.execSetgain {r : ReferencePins} {c a : State} (h : Prompted r c a) (n : BitVec 2) :
    Matched (execSetgain n c) (execSetgain n a) := by
  unfold Machine.execSetgain
  rw [h.refines.pos]
  split
  · exact h.refines.whenInitialised (.next (h.refines.accepted.map _ (setgainAccept_pinBlind n)))
  · exact .next h.refines

/-- The attempt count decides where `W4` goes (42_read.md R185). -/
theorem Refines.readW4 {c a : State} (h : Refines c a) : Refines (readW4 c) (readW4 a) := by
  unfold Machine.readW4
  rw [h.agree State.pollcnt fun _ _ => rfl, h.agree State.params fun _ _ => rfl]
  split
  · exact (h.delay _).map _ fun _ _ => rfl
  · exact (h.delay _).map _ fun _ _ => rfl

theorem Prompted.readW5 {r : ReferencePins} {c a : State} (h : Prompted r c a) (hp : c.pos = .w5) :
    Matched (readW5 c) (readW5 a) := by
  unfold Machine.readW5
  rw [h.refines.agree State.pend fun _ _ => rfl]
  split
  · exact h.issue hp rfl fun _ _ _ => rfl
  · exact h.issue hp rfl fun _ _ _ => rfl
  · exact h.issue hp rfl fun _ _ _ => rfl
  · exact .fault _ _

theorem afterEndFall_pinBlind : PinBlind afterEndFall := by
  intro e s
  unfold afterEndFall
  rw [apply_ite (withEnv e), ← countPulse_pinBlind]
  rfl

theorem Prompted.execRead {r : ReferencePins} {c a : State} (h : Prompted r c a) :
    Matched (execRead c) (execRead a) := by
  unfold Machine.execRead
  rw [h.refines.pos]
  split
  · exact h.refines.whenInitialised ((h.refines.accepted.map readClear fun _ _ => rfl).launch _)
  · next hp => exact h.issue hp rfl fun _ _ _ => rfl
  · next hp => exact h.issue hp rfl fun _ _ _ => rfl
  · next hp => exact h.issue hp rfl fun v _ _ => by cases v <;> rfl
  · next hp => exact h.issue hp rfl fun v _ _ => by cases v <;> rfl
  · exact .next h.refines.readW4
  · next hp => exact h.readW5 hp
  · next hp => exact h.writeClock hp rfl fun _ _ => rfl
  · exact h.refines.delayThen Params.tHigh fun _ _ => rfl
  · next hp => exact h.writeClock hp rfl fun _ _ => rfl
  · exact h.refines.delayThen Params.tLow fun _ _ => rfl
  · next hp => exact h.issue hp rfl fun _ _ _ => rfl
  · next hp => exact h.writeClock hp rfl fun _ _ => rfl
  · exact h.refines.delayThen Params.tHigh fun _ _ => rfl
  · next hp => exact h.writeClock hp rfl afterEndFall_pinBlind
  · exact h.refines.delayThen Params.tLow countPulse_pinBlind
  · exact .next h.refines

theorem Prompted.exec {r : ReferencePins} {c a : State} (h : Prompted r c a) (i : Instr) :
    Matched (exec i c) (exec i a) := by
  cases i with
  | init x y => exact h.execInit x y
  | reset => exact h.execReset
  | shutdown => exact h.execShutdown
  | read => exact h.execRead
  | setgain n => exact h.execSetgain n

/-! #### A step -/

theorem Prompted.map {r : ReferencePins} {c a : State} (h : Prompted r c a) (k : State → State) (hk : PinBlind k)
    (hpos : ∀ s, (k s).pos = s.pos) : Prompted r (k c) (k a) := by
  have hreplies : (k a).replies = a.replies := (congrArg State.replies (hk a a)).trans rfl
  refine ⟨h.refines.map k hk, (hk.pins c).trans h.pins, ?_, ?_⟩
  · rw [hpos, hreplies]; exact h.reply
  · rw [hpos]; exact h.driven

/-- The next micro-step of an idle controller (20_memory.md R67): both take the same word from the port. -/
theorem Prompted.stepIdle {r : ReferencePins} {c a : State} (h : Prompted r c a) :
    Matched (stepIdle c) (stepIdle a) := by
  have hrest := h.map (fun s => { s with cmds := s.cmds.tail }) (fun _ _ => rfl) fun _ => rfl
  unfold Machine.stepIdle
  rw [offered_eq c, offered_eq a, h.refines.agree (fun s => s.cmds.head?.join) fun _ _ => rfl]
  cases c.cmds.head?.join with
  | none => exact .next hrest.refines.cycle
  | some w =>
    simp only
    split
    · exact .next (hrest.refines.accepted.map (complete .illegalCommand) fun _ _ => rfl)
    · exact hrest.exec _

theorem Prompted.step {r : ReferencePins} {c a : State} (h : Prompted r c a) : Matched (step c) (step a) := by
  have htick := h.map tick (fun _ _ => rfl) fun _ => rfl
  unfold Machine.step
  rw [h.refines.agree State.inReset fun _ _ => rfl, h.refines.agree State.running fun _ _ => rfl]
  split
  · exact .next htick.refines.hardReset
  · split
    · exact htick.exec _
    · exact htick.stepIdle

/-- What the `abstract` pin layer has to answer at position `p`: what the registers `r` answer (20_memory.md R66). -/
def answersDue (r : ReferencePins) (p : Pos) : List (Option Answer) :=
  match p.prim with
  | some q => [some (r.answer q)]
  | none => []

theorem answersDue_prim {r : ReferencePins} {p : Pos} {q : Prim} (h : p.prim = some q) :
    answersDue r p = [some (r.answer q)] := by
  simp [answersDue, h]

/-- The clock is written by RESET, SHUTDOWN and READ only, which run on an initialised block. -/
theorem phase_of_writeLevel {p : Pos} {l : Level} (h : p.prim = some (.writeLevel l)) :
    p.phase ≠ .idle ∧ p.phase ≠ .init := by
  cases p <;> simp_all [Pos.prim, Pos.phase]

/-- Settles O55: with the answers of the `reference` registers laid down, the abstract step does the same; by the two
invariants a write of the clock finds the line driven. -/
theorem referenceRefinesAbstract : Obligations.ReferenceRefinesAbstract := by
  intro c a r c' hinv hclock hpins h ht
  have hdriven (l : Level) (hl : c.pos.prim = some (.writeLevel l)) : r.pdSckOe = true := by
    obtain ⟨hidle, hinit⟩ := phase_of_writeLevel hl
    obtain ⟨hinitialised, -⟩ := hinv.running hidle hinit
    exact hclock.driven hinitialised r hpins
  have hprompted : Prompted r c { a with replies := answersDue r c.pos } :=
    ⟨h.withReplies _, hpins, fun p hp => answersDue_prim hp, hdriven⟩
  obtain ⟨a', ha', href⟩ := hprompted.step c' ht
  exact ⟨_, a', ha', href⟩

end Sys2Proof.Machine

/-! PROOF. The encoding (30_encoding.md): the decoder as the inverse of the encoder, the match and mask table, the illegal
words, and the text forms (O1 to O6). -/

namespace Sys2Proof

/-! ### Words and their fields (30_encoding.md R91) -/

theorem Fields.toWord_inj {f g : Fields} : f.toWord = g.toWord ↔ f = g :=
  ⟨fun h => by rw [← Fields.ofWord_toWord f, h, Fields.ofWord_toWord], fun h => h ▸ rfl⟩

theorem Fields.ofWord_inj {v w : Word} : Fields.ofWord v = Fields.ofWord w ↔ v = w := by
  rw [← Fields.toWord_inj, Fields.toWord_ofWord, Fields.toWord_ofWord]

theorem encode_eq_iff {i : Instr} {w : Word} : encode i = w ↔ Fields.ofWord w = i.fields := by
  rw [← Fields.ofWord_inj, encode, Fields.ofWord_toWord, eq_comm]

/-! ### The decoder inverts the encoder (O1, O2, O5) -/

theorem decode_eq_ok_iff {w : Word} {i : Instr} : decode w = .ok i ↔ encode i = w := by
  constructor
  · intro h
    rw [encode_eq_iff]
    cases hchecks : (Fields.ofWord w).illegal? with
    | some e => simp [decode_eq, hchecks] at h
    | none => exact (Fields.instr_fields hchecks (by simpa [decode_eq, hchecks] using h)).symm
  · rintro rfl
    obtain ⟨hchecks, hinstr⟩ := i.fields_instr
    simp [decode_eq, encode, hchecks, hinstr]

/-- Settles O1: the fields of a command pass the checks and name it. -/
theorem decodeEncodeIdentity : Obligations.DecodeEncodeIdentity := fun _ => decode_eq_ok_iff.mpr rfl

/-- Settles O2: the fields are all of the word, and those of a decoded word are its command's. -/
theorem encodeDecodeIdentity : Obligations.EncodeDecodeIdentity := fun _ _ => decode_eq_ok_iff.mp

theorem encode_injective : Function.Injective encode := by
  intro i j h
  have hi : decode (encode i) = .ok j := decode_eq_ok_iff.mpr h.symm
  rw [decodeEncodeIdentity i] at hi
  exact Except.ok.inj hi

/-- Settles O5: each word is the one its command is encoded to. -/
theorem decodeWordsOfTheSpec : Obligations.DecodeWordsOfTheSpec := by
  simp only [Obligations.DecodeWordsOfTheSpec, decode_eq_ok_iff]
  decide

/-! ### The match and mask table (O3) -/

/-- Fields masked one by one. -/
def Fields.and (f m : Fields) : Fields :=
  ⟨f.op &&& m.op, f.n &&& m.n, f.z0 &&& m.z0, f.cpin &&& m.cpin, f.dpin &&& m.dpin, f.z1 &&& m.z1⟩

theorem Fields.toWord_and (f m : Fields) : (f.and m).toWord = f.toWord &&& m.toWord := by
  simp only [Fields.toWord, Fields.and, ← BitVec.and_append]

/-- A masked comparison of words is one of their fields. -/
theorem and_eq_iff_fields (w m p : Word) :
    w &&& m = p ↔ (Fields.ofWord w).and (Fields.ofWord m) = Fields.ofWord p := by
  rw [← Fields.toWord_inj, Fields.toWord_and]
  simp only [Fields.toWord_ofWord]

theorem Instr.exists_iff {P : Instr → Prop} :
    (∃ i, P i) ↔ (∃ c d, P (.init c d)) ∨ P .reset ∨ P .shutdown ∨ P .read ∨ ∃ n, P (.setgain n) := by
  constructor
  · rintro ⟨i, h⟩
    cases i with
    | init c d => exact .inl ⟨c, d, h⟩
    | reset => exact .inr (.inl h)
    | shutdown => exact .inr (.inr (.inl h))
    | read => exact .inr (.inr (.inr (.inl h)))
    | setgain n => exact .inr (.inr (.inr (.inr ⟨n, h⟩)))
  · rintro (⟨c, d, h⟩ | h | h | h | ⟨n, h⟩) <;> exact ⟨_, h⟩

/-- The words a row matches are those of its commands: each mask leaves out the fields of the row's operands, and only
those. -/
theorem row_matches_iff (w : Word) {r : Row} (hr : r ∈ opcodeRows) :
    w &&& r.mask = r.pattern ↔ ∃ i, encode i = w ∧ i.mnemonic = r.mnemonic := by
  have hones3 (x : BitVec 3) : x &&& 7#3 = x := BitVec.and_allOnes
  have hones2 (x : BitVec 2) : x &&& 3#2 = x := BitVec.and_allOnes
  have hones8 (x : BitVec 8) : x &&& 255#8 = x := BitVec.and_allOnes
  simp only [and_eq_iff_fields, encode_eq_iff]
  generalize Fields.ofWord w = f
  obtain ⟨op, n, z0, c, d, z1⟩ := f
  simp only [opcodeRows, List.mem_cons, List.not_mem_nil, or_false] at hr
  obtain rfl | rfl | rfl | rfl | rfl := hr <;>
    simp [Instr.exists_iff, Instr.mnemonic, Instr.fields, Fields.and, Fields.ofWord, hones2, hones3, hones8]

/-- Settles O3: a word is the word of one command, and that command has one row. -/
theorem decodeFollowsTheTable : Obligations.DecodeFollowsTheTable := by
  simp only [Obligations.DecodeFollowsTheTable, decode_eq_ok_iff]
  refine ⟨fun w r hr => row_matches_iff w hr, fun w r hr r' hr' h h' => ?_, fun w c d h => ?_, fun w n h => ?_⟩
  · obtain ⟨i, hi, hmi⟩ := (row_matches_iff w hr).mp h
    obtain ⟨j, hj, hmj⟩ := (row_matches_iff w hr').mp h'
    obtain rfl := encode_injective (hi.trans hj.symm)
    have hrows : ∀ r ∈ opcodeRows, ∀ r' ∈ opcodeRows, r.mnemonic = r'.mnemonic → r = r' := by decide
    exact hrows r hr r' hr' (hmi.symm.trans hmj)
  · have hfields := encode_eq_iff.mp h
    exact ⟨(congrArg Fields.cpin hfields).symm, (congrArg Fields.dpin hfields).symm⟩
  · exact (congrArg Fields.n (encode_eq_iff.mp h)).symm

/-! ### Illegal words (O4) -/

theorem ite_some_ne_none {α : Type} {P : Prop} [Decidable P] {a : α} {o : Option α} :
    (if P then some a else o) ≠ none ↔ P ∨ o ≠ none := by
  split <;> simp [*]

/-- The checks of 30_encoding.md R98, in any order. -/
theorem Fields.illegal?_ne_none_iff (f : Fields) : f.illegal? ≠ none ↔
    (f.op = 0 ∨ f.op = 6 ∨ f.op = 7) ∨ (f.z0 ≠ 0 ∨ f.z1 ≠ 0) ∨ (f.n ≠ 0 ∧ f.op ≠ 5) ∨
      ((f.cpin ≠ 0 ∨ f.dpin ≠ 0) ∧ f.op ≠ 1) := by
  simp only [Fields.illegal?, ite_some_ne_none, ne_self_iff_false, or_false]

/-- Fields that pass the checks are those of a command: every operation code that is not reserved has one. -/
theorem Fields.exists_instr {f : Fields} (h : f.illegal? = none) : ∃ i, f.instr = .ok i := by
  have hop : ¬ (f.op = 0 ∨ f.op = 6 ∨ f.op = 7) := fun hr => (f.illegal?_ne_none_iff.mpr (.inl hr)) h
  have hcodes : ∀ op : BitVec 3, ¬ (op = 0 ∨ op = 6 ∨ op = 7) → op = 1 ∨ op = 2 ∨ op = 3 ∨ op = 4 ∨ op = 5 := by
    decide
  obtain h | h | h | h | h := hcodes f.op hop <;> simp [Fields.instr, h]

theorem exists_decode_error_iff (w : Word) : (∃ e, decode w = .error e) ↔ (Fields.ofWord w).illegal? ≠ none := by
  cases hchecks : (Fields.ofWord w).illegal? with
  | some e => simp [decode_eq, hchecks]
  | none =>
    obtain ⟨i, hi⟩ := Fields.exists_instr hchecks
    simp [decode_eq, hchecks, hi]

theorem Instr.exists_row (i : Instr) : ∃ r ∈ opcodeRows, r.mnemonic = i.mnemonic := by
  have hword : Laws.EncodedWord.Statement i := by
    cases i with
    | init c d => exact Laws.EncodedWord.init c d
    | reset => exact Laws.EncodedWord.reset
    | shutdown => exact Laws.EncodedWord.shutdown
    | read => exact Laws.EncodedWord.read
    | setgain n => exact Laws.EncodedWord.setgain n
  obtain ⟨-, -, hrow⟩ := hword
  exact hrow

/-- 30_encoding.md R98: an illegal word is one that no row matches. -/
theorem exists_decode_error_iff_no_row (w : Word) :
    (∃ e, decode w = .error e) ↔ ∀ r ∈ opcodeRows, w &&& r.mask ≠ r.pattern := by
  constructor
  · rintro ⟨e, he⟩ r hr hmatch
    obtain ⟨i, hi, -⟩ := (row_matches_iff w hr).mp hmatch
    simp [decode_eq_ok_iff.mpr hi] at he
  · intro hrows
    cases hd : decode w with
    | error e => exact ⟨e, rfl⟩
    | ok i =>
      obtain ⟨r, hr, hm⟩ := i.exists_row
      exact absurd ((row_matches_iff w hr).mpr ⟨i, decode_eq_ok_iff.mp hd, hm.symm⟩) (hrows r hr)

end Sys2Proof

namespace Sys2Proof.Machine

/-- An idle controller out of reset completes an illegal word at once (30_encoding.md R97, R98). -/
theorem step_illegal {s : State} {w : Word} {rest : List (Option Word)} {e : Illegal} (hready : s.cmdReady = true)
    (hcmds : s.cmds = some w :: rest) (hd : decode w = .error e) : step s = .next (acceptIllegal (taken s)) := by
  obtain ⟨hidle, hreset⟩ := (cmdReady_iff s).mp hready
  have hoffered : offered (tick s) = (some w, taken s) := by simp [offered_cons (s := tick s) hcmds, taken, hcmds]
  simp [step, hreset, (running_eq_none s).mpr hidle, stepIdle, hoffered, hd]

/-- Settles O4: the checks and the table say which words are illegal, and an illegal word only writes the response. -/
theorem illegalWords : Obligations.IllegalWords := by
  refine ⟨fun w => ?_, exists_decode_error_iff_no_row, ⟨.reservedOp, rfl⟩, fun s w rest e hready hcmds hd => ?_⟩
  · rw [exists_decode_error_iff, Fields.illegal?_ne_none_iff]
    exact Iff.rfl
  · refine ⟨_, step_illegal hready hcmds hd, ⟨?_, ?_, ?_, ?_⟩, ?_, ?_, ?_, ?_,
      SameLines.congr (cycle_sameLines (taken s)) rfl, ?_, ?_, ?_⟩ <;>
      simp [acceptIllegal, State.outcome, State.datapath, State.counters, State.config, State.validity, hcmds]

end Sys2Proof.Machine

namespace Sys2Proof

/-! ### The text forms (O6) -/

theorem toNat_append_eq_add {m n : Nat} (x : BitVec m) (y : BitVec n) :
    (x ++ y).toNat = x.toNat * 2 ^ n + y.toNat := by
  rw [BitVec.toNat_append, ← Nat.shiftLeft_add_eq_or_of_lt y.isLt, Nat.shiftLeft_eq]

/-- The places of the fields in `CMD32` (30_encoding.md R91). -/
theorem Fields.toNat_toWord (f : Fields) : f.toWord.toNat =
    f.z1.toNat * 2 ^ 24 + f.dpin.toNat * 2 ^ 16 + f.cpin.toNat * 2 ^ 8 + f.z0.toNat * 2 ^ 5 + f.n.toNat * 2 ^ 3
      + f.op.toNat := by
  simp only [Fields.toWord, toNat_append_eq_add]
  omega

theorem encode_init_ofNat {c d : Nat} (hc : c < 256) (hd : d < 256) :
    encode (.init (BitVec.ofNat 8 c) (BitVec.ofNat 8 d)) = BitVec.ofNat 32 (d * 65536 + c * 256 + 1) := by
  apply BitVec.eq_of_toNat_eq
  simp only [encode, Fields.toNat_toWord, Instr.fields, BitVec.toNat_ofNat, BitVec.ofNat_eq_ofNat]
  omega

theorem encode_setgain_ofNat {n : Nat} (hn : n < 4) :
    encode (.setgain (BitVec.ofNat 2 n)) = BitVec.ofNat 32 (n * 8 + 5) := by
  apply BitVec.eq_of_toNat_eq
  simp only [encode, Fields.toNat_toWord, Instr.fields, BitVec.toNat_ofNat, BitVec.ofNat_eq_ofNat]
  omega

/-- An identifier of the build fits its field of `CMD32` (log 2). -/
theorem two_pow_pinIdW_le {p : Params} (h : p.wf = true) : 2 ^ p.pinIdW ≤ 256 := by
  have hw : p.pinIdW ≤ 8 := by
    simp only [Params.wf, Params.widthsWf, Bool.and_eq_true, decide_eq_true_eq] at h
    omega
  exact Nat.pow_le_pow_right (by decide) hw

theorem Asm.assemble_eq_none {p : Params} {a : Asm} (h : ¬ a.wellFormed p) : a.assemble p = none := by
  simp [Asm.assemble, Asm.expand, h]

/-- The label is stripped where it stands, and what is left is read as a number (30_encoding.md R107). -/
theorem pinText_eq {p : Params} {x c : List Char} (h : x = p.pinPrefix ++ c ∨ x = c ∧ ¬ p.pinPrefix <+: c) :
    pinText p x = numberText c := by
  obtain rfl | ⟨rfl, hno⟩ := h
  · simp [pinText]
  · simp [pinText, hno]

/-- Settles O6: with operands that fit their fields the places of the fields give the word. -/
theorem textFormsAssemble : Obligations.TextFormsAssemble := by
  intro p hp
  have hfit := two_pow_pinIdW_le hp
  refine ⟨fun c d hc hd => ?_, fun n hn => ?_, rfl, rfl, rfl, rfl, rfl, rfl, rfl, rfl, fun c d h => ?_, fun n hn => ?_,
    fun x y c d hx hy => ?_⟩
  · rw [← encode_init_ofNat (Nat.lt_of_lt_of_le hc hfit) (Nat.lt_of_lt_of_le hd hfit)]
    simp [Asm.assemble, Asm.expand, Asm.wellFormed, hc, hd]
  · rw [← encode_setgain_ofNat hn]
    simp [Asm.assemble, Asm.expand, Asm.wellFormed, hn]
  · exact Asm.assemble_eq_none (by simp [Asm.wellFormed]; omega)
  · exact Asm.assemble_eq_none (by simpa [Asm.wellFormed] using hn)
  · cases hm : numberText c <;> cases hn : numberText d <;> simp [initLine, pinText_eq hx, pinText_eq hy, hm, hn]

end Sys2Proof

/-! PROOF. The primitives (40_primitives.md): sign extension, the shift of a sample, and the pulses of READ (O24, O53,
O54). -/

namespace Sys2Proof.Machine

/-! ### Sign extension (O53) -/

theorem sample_msb (v : Sample) : v.msb = v.getLsbD 23 := v.msb_eq_getLsbD_last

/-- Filling in the bits above bit 23 of a negative sample is the arithmetic sign extension (40_primitives.md R131). -/
theorem signExtendTo_eq_signExtend (w : Nat) (v : Sample) : signExtendTo w v = v.signExtend w := by
  apply BitVec.eq_of_getLsbD_eq
  intro i hi
  rw [BitVec.getLsbD_signExtend, sample_msb, signExtendTo]
  by_cases hlow : i < Config.dataBits
  · cases v.getLsbD 23 <;> simp [hi, hlow]
  · have habove : v.getLsbD i = false := v.getLsbD_of_ge i (Nat.not_lt.mp hlow)
    cases v.getLsbD 23 <;> simp [hi, hlow, habove]

theorem toInt_signExtendTo {w : Nat} (hw : 24 ≤ w) (v : Sample) : (signExtendTo w v).toInt = v.toInt := by
  rw [signExtendTo_eq_signExtend, BitVec.toInt_signExtend_of_le hw]

/-- Settles O53: the sign extension keeps the integer of the sample, and the rest holds of any 24-bit integer. -/
theorem signExtensionIsExact : Obligations.SignExtensionIsExact := by
  refine ⟨fun w v hw => ⟨signExtendTo_eq_signExtend w v, ?_⟩, fun _ _ => rfl⟩
  rw [toInt_signExtendTo hw]
  refine ⟨?_, ?_, v.le_toInt, Int.le_sub_one_of_lt v.toInt_lt⟩
  · rw [v.toInt_eq_msb_cond, sample_msb]; rfl
  · rw [v.toInt_eq_toNat_bmod]
    exact Int.bmod_emod.trans (Int.emod_eq_of_lt (Int.natCast_nonneg _) (by have := v.isLt; omega))

/-! ### Shifting a sample in (O54) -/

/-- One shift puts the level under the low 23 bits (40_primitives.md R130). -/
theorem getLsbD_shiftIn (a : Sample) (l : Level) (i : Nat) :
    (shiftIn a l).getLsbD i = if i = 0 then decide (l = .high) else decide (i < 24) && a.getLsbD (i - 1) := by
  rw [shiftIn, BitVec.getLsbD_append]
  cases i with
  | zero => cases l <;> rfl
  | succ i => simp [show i < 23 ↔ i + 1 < 24 by omega]

theorem shiftIn_eq_or (a : Sample) (l : Level) : shiftIn a l = (a <<< 1 ||| (levelBit l).setWidth 24) := by
  apply BitVec.eq_of_getLsbD_eq
  intro i hi
  rw [getLsbD_shiftIn]
  cases i with
  | zero => cases l <;> simp [levelBit]
  | succ i => simp [hi, BitVec.getLsbD_eq_getElem (Nat.lt_of_succ_lt hi)]

/-- While bit 23 is clear, a shift doubles the accumulator and adds the bit. -/
theorem toNat_shiftIn {a : Sample} (h : a.toNat < 2 ^ 23) (l : Level) :
    (shiftIn a l).toNat = 2 * a.toNat + (levelBit l).toNat := by
  rw [shiftIn, toNat_append_eq_add, BitVec.extractLsb'_toNat, Nat.shiftRight_zero, Nat.mod_eq_of_lt h]
  omega

/-- Bit `i` of the accumulator is the level shifted in `i` shifts before the last one; `ls` holds the last level first. -/
theorem getLsbD_shiftAll_reverse (ls : List Level) {i : Nat} (hi : i < 24) :
    (shiftAll ls.reverse).getLsbD i = decide (ls[i]? = some .high) := by
  induction ls generalizing i with
  | nil => exact BitVec.getLsbD_zero
  | cons l ls ih =>
    rw [List.reverse_cons, shiftAll_snoc, getLsbD_shiftIn]
    cases i with
    | zero => simp only [if_true, List.getElem?_cons_zero, Option.some.injEq]
    | succ i => simp only [if_neg (Nat.succ_ne_zero i), hi, decide_true, Bool.true_and, Nat.add_sub_cancel,
        ih (Nat.lt_of_succ_lt hi), List.getElem?_cons_succ]

/-- Shifting the last levels into an accumulator of `k` bits: each has the weight of its place (20_memory.md R63). -/
theorem toNat_foldl_shiftIn (ls : List Level) {a : Sample} {k : Nat} (hk : k + ls.length = 24) (ha : a.toNat < 2 ^ k) :
    (ls.foldl shiftIn a).toNat =
      a.toNat * 2 ^ (24 - k) + ((ls.zipIdx k).map fun p => (levelBit p.1).toNat * 2 ^ (23 - p.2)).sum := by
  induction ls generalizing a k with
  | nil => simp [show k = 24 from hk]
  | cons l ls ih =>
    rw [List.length_cons] at hk
    have hshift := toNat_shiftIn (Nat.lt_of_lt_of_le ha (Nat.pow_le_pow_right (by decide) (by omega : k ≤ 23))) l
    have hbit := (levelBit l).isLt
    rw [List.foldl_cons, ih (k := k + 1) (by omega) (by rw [hshift, Nat.pow_succ]; omega), hshift, List.zipIdx_cons,
      List.map_cons, List.sum_cons, show 24 - k = 23 - k + 1 by omega, show 24 - (k + 1) = 23 - k by omega,
      Nat.add_mul, Nat.pow_succ', Nat.mul_left_comm, ← Nat.mul_assoc, Nat.add_assoc]

/-- Settles O54: bit `23 - k` is the level `k` places from the front, and each shift doubles what came before. -/
theorem shiftInMostSignificantFirst : Obligations.ShiftInMostSignificantFirst := by
  refine ⟨shiftIn_eq_or, fun ls hlen => ⟨fun k hk => ?_, ?_⟩⟩
  · have hplace : ls.reverse[23 - k]? = some ls[k] := by
      rw [List.getElem?_reverse (by omega), show ls.length - 1 - (23 - k) = k by omega, List.getElem?_eq_getElem hk]
    have hbit := getLsbD_shiftAll_reverse ls.reverse (i := 23 - k) (by omega)
    simpa only [List.reverse_reverse, hplace, Option.some.injEq] using hbit
  · have hsum := toNat_foldl_shiftIn ls (a := 0) (k := 0) (by omega) (by decide)
    rwa [show (0 : Sample).toNat = 0 from rfl, Nat.zero_mul, Nat.zero_add] at hsum

/-! ### The pulses of READ (O24) -/

theorem SameRegisters.goto {s t : State} (h : SameRegisters s t) (p : Pos) : SameRegisters s (goto p t) := h

theorem primitive_sameRegisters (p : Prim) (s : State) : SameRegisters s (primitive p s).2 := by
  simp [SameRegisters, State.datapath, State.counters, State.config, State.validity, State.outcome, State.outside]

theorem delay_sameRegisters (t : Nat) (s : State) : SameRegisters s (delay t s) := by
  simp [SameRegisters, State.datapath, State.counters, State.config, State.validity, State.outcome, State.outside]

theorem delay_log_append (t : Nat) (s : State) : (delay t s).log = delayTrace t ++ s.log := by
  rw [delay_log, delayTrace]
  split <;> rfl

theorem writeClock_answered {s : State} {l : Level} {v : Bool} (hr : s.ready = true)
    (ha : s.answerTo (.writeLevel l) = some (.ok v)) (k : State → State) :
    writeClock l k s = .next (k (primitive (.writeLevel l) s).2) :=
  issue_answered hr ha _

/-- What `t` is after a micro-step from `s` that writes `l` to the clock line and gets `v` back (40_primitives.md R123):
nothing changes but `STEP`, the line and the trace. -/
structure ClockWritten (s : State) (l : Level) (v : Bool) (t : State) : Prop where
  registers : SameRegisters s t
  level : s.drives → t.clkLvl = driven (decide (l = .high))
  arming : t.edgeArmed = s.edgeArmed
  log : t.log = .prim (.writeLevel l) s.cpin (.ok v) :: s.log

theorem clockWritten_goto {s : State} {l : Level} {v : Bool} (ha : s.answerTo (.writeLevel l) = some (.ok v))
    (q : Pos) : ClockWritten s l v (goto q (primitive (.writeLevel l) s).2) where
  registers := (primitive_sameRegisters _ s).goto q
  level hd := primitive_write_clkLvl ha ((drives_iff s).mp hd)
  arming := primitive_other_edgeArmed (by simp) (by simp)
  log := primitive_log ha

/-- What `t` is after a micro-step from `s` that is a delay of `n` (40_primitives.md R128): nothing changes but
`STEP` and the trace. -/
structure Delayed (s : State) (n : Nat) (t : State) : Prop where
  registers : SameRegisters s t
  lines : SameLines s t
  log : t.log = delayTrace n ++ s.log

theorem delayed_goto (s : State) (n : Nat) (q : Pos) : Delayed s n (goto q (delay n s)) where
  registers := (delay_sameRegisters n s).goto q
  lines := delay_sameLines n s
  log := delay_log_append n s

/-- The rising write of a pulse (42_read.md R188, R191). -/
theorem execRead_rise {s : State} {v : Bool} {rise high fall : Pos} (hq : PulseAt rise high fall) (hp : s.pos = rise)
    (hr : s.ready = true) (ha : s.answerTo (.writeLevel .high) = some (.ok v)) :
    ∃ t, execRead s = .next t ∧ t.pos = (if s.params.tHigh = 0 then fall else high) ∧ ClockWritten s .high v t := by
  refine ⟨_, ?_, goto_pos _ _, clockWritten_goto ha (if s.params.tHigh = 0 then fall else high)⟩
  cases hq <;> simp only [execRead, hp, writeClock_answered hr ha, afterRise, primitive_params]

/-- The delay while the clock is High (R188, R191). -/
theorem execRead_hold {s : State} {rise high fall : Pos} (hq : PulseAt rise high fall) (hp : s.pos = high) :
    ∃ t, execRead s = .next t ∧ t.pos = fall ∧ Delayed s s.params.tHigh t := by
  refine ⟨_, ?_, goto_pos fall _, delayed_goto s _ fall⟩
  cases hq <;> simp only [execRead, hp]

/-- The falling write of a pulse, where the counting of an end pulse does not share its micro-step (R188, R191). -/
theorem execRead_fall {s : State} {v : Bool} (hp : s.pos = .b2 ∨ s.pos = .e2 ∧ s.params.tLow ≠ 0)
    (hr : s.ready = true) (ha : s.answerTo (.writeLevel .low) = some (.ok v)) :
    ∃ t, execRead s = .next t ∧ (s.pos = .b2 → t.pos = if s.params.tLow = 0 then .b4 else .b3) ∧
      (s.pos = .e2 → t.pos = .e3) ∧ ClockWritten s .low v t := by
  obtain hp | ⟨hp, hlow⟩ := hp
  · refine ⟨_, ?_, fun _ => rfl, by simp [hp], clockWritten_goto ha (if s.params.tLow = 0 then .b4 else .b3)⟩
    simp only [execRead, hp, writeClock_answered hr ha, primitive_params]
  · refine ⟨_, ?_, by simp [hp], fun _ => rfl, clockWritten_goto ha .e3⟩
    simp only [execRead, hp, writeClock_answered hr ha, afterEndFall, primitive_params, if_neg hlow]

/-- Settles O24: each step of a pulse writes the clock line or is a delay, and goes to the step that follows. -/
theorem readPulses : Obligations.ReadPulses := by
  intro s hr
  refine ⟨fun v ha hp => ?_, fun hp => ?_, fun v ha hp => ?_, fun hp => ?_⟩
  · obtain hp | hp := hp
    · obtain ⟨t, ht, hpos, hw⟩ := execRead_rise .data hp hr ha
      exact ⟨t, ht, fun _ => hpos, by simp [hp], hw.registers, hw.level, hw.arming, hw.log⟩
    · obtain ⟨t, ht, hpos, hw⟩ := execRead_rise .endPulse hp hr ha
      exact ⟨t, ht, by simp [hp], fun _ => hpos, hw.registers, hw.level, hw.arming, hw.log⟩
  · obtain hp | hp := hp
    · obtain ⟨t, ht, hpos, hd⟩ := execRead_hold .data hp
      exact ⟨t, ht, fun _ => hpos, by simp [hp], hd.registers, hd.lines, hd.log⟩
    · obtain ⟨t, ht, hpos, hd⟩ := execRead_hold .endPulse hp
      exact ⟨t, ht, by simp [hp], fun _ => hpos, hd.registers, hd.lines, hd.log⟩
  · obtain ⟨t, ht, hb, he, hw⟩ := execRead_fall hp hr ha
    exact ⟨t, ht, hb, he, hw.registers, hw.level, hw.arming, hw.log⟩
  · have hd := delayed_goto s s.params.tLow .b4
    exact ⟨_, by simp only [exec, execRead, hp], rfl, hd.registers, hd.lines, hd.log⟩

end Sys2Proof.Machine

/-! PROOF. The lifecycle commands (41_lifecycle.md): the acceptance and the micro-programs of INIT, RESET and SHUTDOWN,
SETGAIN, and whole runs in the `abstract` binding (O14 to O18, O30 to O32). -/

namespace Sys2Proof.Machine

/-! ### Acceptance (R150) -/

@[simp] theorem accepted_datapath (s : State) : (accepted s).datapath = s.datapath := by simp [State.datapath]
@[simp] theorem accepted_counters (s : State) : (accepted s).counters = s.counters := by simp [State.counters]
@[simp] theorem accepted_config (s : State) : (accepted s).config = s.config := by simp [State.config]
@[simp] theorem accepted_validity (s : State) : (accepted s).validity = s.validity := by simp [State.validity]
@[simp] theorem accepted_outside (s : State) : (accepted s).outside = s.outside := by simp [State.outside]

theorem accepted_sameLines (s : State) : SameLines s (accepted s) := (cycle_sameLines s).congr rfl

theorem begin_accepted_outcome (p : Pos) (s : State) : (begin p (accepted s)).outcome = freshOutcome := by
  simp [State.outcome, freshOutcome]

/-- `complete` ends the command over the trace of its micro-step (60_exceptions.md R230). -/
theorem completedWith_complete {s u : State} {cf : Bool} {io : IoCause} {tr : List Obs} (c : Code)
    (hcf : u.cleanupFail = cf) (hio : u.iocause = io) (hlog : u.log = tr ++ s.log) :
    CompletedWith s (complete c u) c cf io tr :=
  ⟨by simp [State.outcome, hcf, hio], rfl, rfl, by simp [hcf, hlog]⟩

/-- A command that ends in its acceptance leaves no trace. -/
theorem completedWith_accepted (c : Code) (s : State) : CompletedWith s (complete c (accepted s)) c false .clear [] :=
  completedWith_complete c (accepted_cleanupFail s) (accepted_iocause s) (accepted_log s)

/-! ### SETGAIN (O18) -/

theorem setgainAccept_zero (s : State) : setgainAccept 0 s = complete .configError s := rfl

theorem setgainAccept_legal {n : BitVec 2} (h : n ≠ 0) (s : State) :
    setgainAccept n s = complete .ok { s with endpulses := n } := by
  rw [setgainAccept, if_pos ((gainLegal_eq n).mpr h)]

theorem execSetgain_initialised {s : State} (hp : s.pos = .idle) (hi : s.initialised = true) (hne : s.cpin ≠ s.dpin)
    (n : BitVec 2) : exec (.setgain n) s = .next (setgainAccept n (accepted s)) := by
  simp only [exec, execSetgain, hp, whenInitialised_ok hi hne]

/-- Settles O18: SETGAIN is its acceptance, which completes with or without the write of ENDPULSES. -/
theorem setgainWritesTheSelector : Obligations.SetgainWritesTheSelector := by
  intro n s hp hi hne
  have hexec := execSetgain_initialised hp hi hne n
  by_cases hn : n = 0
  · rw [hn, setgainAccept_zero] at hexec
    exact ⟨_, hn ▸ hexec, fun h => absurd hn h, fun _ => ⟨completedWith_accepted _ s, accepted_config s⟩,
      accepted_datapath s, accepted_counters s, accepted_validity s, accepted_sameLines s, accepted_outside s⟩
  · rw [setgainAccept_legal hn] at hexec
    exact ⟨_, hexec, fun _ => ⟨completedWith_accepted _ s, by simp [State.config]⟩, fun h => absurd h hn,
      accepted_datapath s, accepted_counters s, accepted_validity s, accepted_sameLines s, accepted_outside s⟩

/-! ### RESET and SHUTDOWN (O16, O17) -/

/-- The two commands that only write the clock line, with their first steps (R153, R155). -/
inductive StartsAt : Instr → Pos → Prop where
  | reset : StartsAt .reset .rs0
  | shutdown : StartsAt .shutdown .s0

theorem exec_starts {i : Instr} {p : Pos} {s : State} (hip : StartsAt i p) (hr : s.ready = true) (hp : s.pos = .idle)
    (hi : s.initialised = true) (hne : s.cpin ≠ s.dpin) : exec i s = .next (begin p (accepted s)) := by
  have hlaunch (q : Pos) : whenInitialised s (launch q) = .next (begin q (accepted s)) := by
    rw [whenInitialised_ok hi hne, launch_ok ((accepted_ready s).trans hr)]
  cases hip <;> simp only [exec, execReset, execShutdown, hp, hlaunch]

/-- The acceptance of RESET and of SHUTDOWN, with its frame (R150, R153, R155). -/
theorem exec_starts_frame {i : Instr} {p : Pos} {s : State} (hip : StartsAt i p) (hr : s.ready = true)
    (hp : s.pos = .idle) (hi : s.initialised = true) (hne : s.cpin ≠ s.dpin) :
    ∃ t, exec i s = .next t ∧ t.pos = p ∧ t.outcome = freshOutcome ∧ t.datapath = s.datapath ∧
      t.counters = s.counters ∧ t.config = s.config ∧ t.validity = s.validity ∧ SameLines s t ∧ t.log = s.log ∧
      t.outside = s.outside :=
  ⟨_, exec_starts hip hr hp hi hne, rfl, begin_accepted_outcome p s, accepted_datapath s, accepted_counters s,
    accepted_config s, accepted_validity s, accepted_sameLines s, accepted_log s, accepted_outside s⟩

theorem execReset_rs0 {s : State} (hp : s.pos = .rs0) : exec .reset s = writeClock .low (goto .rs1) s := by
  simp only [exec, execReset, hp]

theorem execReset_rs1 {s : State} (hp : s.pos = .rs1) : exec .reset s = writeClock .high (goto .rs2) s := by
  simp only [exec, execReset, hp]

theorem execReset_rs2 {s : State} (hp : s.pos = .rs2) :
    exec .reset s = .next (goto .rs3 (delay s.params.tResetHold s)) := by
  simp only [exec, execReset, hp]

theorem execReset_rs3 {s : State} (hp : s.pos = .rs3) : exec .reset s = writeClock .low (complete .ok) s := by
  simp only [exec, execReset, hp]

theorem execShutdown_s0 {s : State} (hp : s.pos = .s0) : exec .shutdown s = writeClock .high (complete .ok) s := by
  simp only [exec, execShutdown, hp]

/-- The last write of RESET and the one of SHUTDOWN: answered Ok, it completes the command (R153, R155). -/
theorem writeClock_completes {s : State} {l : Level} {v : Bool} (hr : s.ready = true)
    (ha : s.answerTo (.writeLevel l) = some (.ok v)) :
    ∃ t, writeClock l (complete .ok) s = .next t ∧
      CompletedWith s t .ok s.cleanupFail s.iocause [.prim (.writeLevel l) s.cpin (.ok v)] ∧
      (s.drives → t.clkLvl = driven (decide (l = .high))) ∧ t.edgeArmed = s.edgeArmed ∧ t.datapath = s.datapath ∧
      t.counters = s.counters ∧ t.config = s.config ∧ t.validity = s.validity ∧ t.outside = s.outside := by
  obtain ⟨hdatapath, hcounters, hconfig, hvalidity, -, houtside⟩ := primitive_sameRegisters (.writeLevel l) s
  exact ⟨_, writeClock_answered hr ha _,
    completedWith_complete .ok (primitive_cleanupFail _ s) (primitive_iocause _ s) (primitive_log ha),
    fun hd => primitive_write_clkLvl ha ((drives_iff s).mp hd), primitive_other_edgeArmed (by simp) (by simp),
    hdatapath, hcounters, hconfig, hvalidity, houtside⟩

/-- Settles O16: the acceptance, two writes that go on, the hold, and the write that completes. -/
theorem resetMicroProgram : Obligations.ResetMicroProgram := by
  intro s hr
  refine ⟨exec_starts_frame .reset hr, fun v hp ha => ?_, fun v hp ha => ?_, fun hp => ?_, fun v hp ha => ?_⟩
  · have hw := clockWritten_goto ha .rs1
    exact ⟨_, (execReset_rs0 hp).trans (writeClock_answered hr ha _), rfl, hw.registers, hw.level, hw.arming, hw.log⟩
  · have hw := clockWritten_goto ha .rs2
    exact ⟨_, (execReset_rs1 hp).trans (writeClock_answered hr ha _), rfl, hw.registers, hw.level, hw.arming, hw.log⟩
  · have hd := delayed_goto s s.params.tResetHold .rs3
    exact ⟨_, execReset_rs2 hp, rfl, hd.registers, hd.lines, hd.log⟩
  · rw [execReset_rs3 hp]
    exact writeClock_completes hr ha

/-- Settles O17: the acceptance, and the one write, which completes. -/
theorem shutdownMicroProgram : Obligations.ShutdownMicroProgram := by
  intro s hr
  refine ⟨exec_starts_frame .shutdown hr, fun v hp ha => ?_⟩
  rw [execShutdown_s0 hp]
  exact writeClock_completes hr ha

/-! ### INIT (O14, O15) -/

/-- INIT's own first actions over the common ones (R151). -/
def initCleared (s : State) : State := { accepted s with initialised := false, resultValid := false }

/-- `s` with INIT's identifiers latched and the block uninitialised (R151). -/
def initLatched (c d : PinId) (s : State) : State :=
  { s with initialised := false, resultValid := false, cpin := c, dpin := d }

theorem initAccept_valid {c d : PinId} {s : State} (hc : pinValid s.params c = true) (hd : pinValid s.params d = true) :
    initAccept c d s = begin .i0 (initLatched c d (accepted s)) := by
  simp [initAccept, initLatched, hc, hd]

theorem initAccept_clock {c : PinId} {s : State} (hc : pinValid s.params c = false) (d : PinId) :
    initAccept c d s = unresolved .clock (initCleared s) := by
  simp [initAccept, initCleared, hc]

theorem initAccept_data {c d : PinId} {s : State} (hc : pinValid s.params c = true) (hd : pinValid s.params d = false) :
    initAccept c d s = unresolved .data (initCleared s) := by
  simp [initAccept, initCleared, hc, hd]

/-- INIT is accepted in IDLE; only with both identifiers valid does it need the pin layer (R151, R266). -/
theorem execInit_accepts {c d : PinId} {s : State} (hp : s.pos = .idle) (hs : s.initialised = true → s.cpin ≠ s.dpin)
    (hr : initNeedsPins c d s = true → s.ready = true) :
    exec (.init c d) s = .next (initAccept c d s) := by
  have hgo : (s.ready || !initNeedsPins c d s) = true := by
    cases hneeds : initNeedsPins c d s with
    | false => rw [Bool.not_false, Bool.or_true]
    | true => rw [hr hneeds, Bool.true_or]
  simp only [exec, execInit, hp, unlessShared_ok hs, hgo, if_true]

/-- An identifier that does not resolve ends INIT at its acceptance, with the pin in `IOCAUSE` (R151, R152(c)). -/
theorem unresolved_frame {s : State} {o : Out} {p : Pin} (h : o = .next (unresolved p (initCleared s))) :
    ∃ t, o = .next t ∧ CompletedWith s t .configError false ⟨.none, p, 0⟩ [] ∧ t.validity = (false, false) ∧
      t.config = s.config ∧ t.datapath = s.datapath ∧ t.counters = s.counters ∧ SameLines s t ∧
      t.outside = s.outside :=
  ⟨_, h, completedWith_complete _ (accepted_cleanupFail s) rfl (accepted_log s), rfl, accepted_config s,
    accepted_datapath s, accepted_counters s, accepted_sameLines s, accepted_outside s⟩

/-- Settles O14: the three outcomes of resolving the clock identifier, then the data identifier. -/
theorem initAcceptance : Obligations.InitAcceptance := by
  intro c d s hp hs
  refine ⟨fun hc hd hr => ?_, fun hc => ?_, fun hc hd => ?_⟩
  · have hexec := execInit_accepts (c := c) (d := d) hp hs fun _ => hr
    rw [initAccept_valid hc hd] at hexec
    exact ⟨_, hexec, rfl, congrArg (·, c, d) (accepted_endpulses s), rfl, begin_accepted_outcome .i0 s,
      accepted_datapath s, accepted_counters s, accepted_sameLines s, accepted_log s, accepted_outside s⟩
  · have hexec := execInit_accepts (c := c) (d := d) hp hs (by simp [initNeedsPins, hc])
    rw [initAccept_clock hc] at hexec
    exact unresolved_frame hexec
  · have hexec := execInit_accepts (c := c) (d := d) hp hs (by simp [initNeedsPins, hd])
    rw [initAccept_data hc hd] at hexec
    exact unresolved_frame hexec

theorem execInit_i0 {c d : PinId} {s : State} {v : Bool} (hr : s.ready = true) (hp : s.pos = .i0)
    (ha : s.answerTo .configureInput = some (.ok v)) :
    exec (.init c d) s = .next (goto .i1 (primitive .configureInput s).2) := by
  simp only [exec, execInit, hp, initI0, issue_answered hr ha]

theorem execInit_i1 {c d : PinId} {s : State} {v : Bool} (hr : s.ready = true) (hp : s.pos = .i1)
    (ha : s.answerTo .configureOutput = some (.ok v)) :
    exec (.init c d) s = .next (complete .ok
      { (primitive .configureOutput s).2 with endpulses := Config.endPulsesDefault, initialised := true }) := by
  simp only [exec, execInit, hp, initI1, issue_answered hr ha]

/-- A step of INIT with the primitive it issues, which configures one pin (R151). -/
inductive Configures : Pos → Prim → Prop where
  | data : Configures .i0 .configureInput
  | clock : Configures .i1 .configureOutput

/-- A failed configure primitive ends INIT (R151). -/
theorem execInit_fail {c d : PinId} {s : State} {p : Prim} {k : Cause} (hq : Configures s.pos p) (hr : s.ready = true)
    (hpend : s.pend = .none) (ha : s.answerTo p = some (.fail k)) :
    exec (.init c d) s = .next (complete .configError { (primitive p s).2 with iocause := ⟨p.kind, p.pin, k⟩ }) := by
  rw [← failIo_first (.inl ((primitive_pend p s).trans hpend))]
  generalize hp : s.pos = q at hq
  cases hq <;> simp only [exec, execInit, hp, initI0, initI1, failWith, issue_answered hr ha]

theorem Configures.edgeArmed {s : State} {q : Pos} {p : Prim} (hq : Configures q p) :
    (primitive p s).2.edgeArmed = s.edgeArmed := by
  cases hq <;> exact primitive_other_edgeArmed (by simp) (by simp)

theorem Configures.fail_clkLvl {s : State} {q : Pos} {p : Prim} {k : Cause} (hq : Configures q p)
    (ha : s.answerTo p = some (.fail k)) : (primitive p s).2.clkLvl = s.clkLvl := by
  rw [primitive_fail_clkLvl ha]
  cases hq <;> rfl

/-- The direction a failed configure primitive would have set is unknown, the other stays (93 U4). -/
theorem Configures.fail_dirs {s : State} {q : Pos} {p : Prim} {k : Cause} (hq : Configures q p)
    (ha : s.answerTo p = some (.fail k)) :
    (q = .i0 → (primitive p s).2.dirData = .unknown ∧ (primitive p s).2.dirClock = s.dirClock) ∧
      (q = .i1 → (primitive p s).2.dirClock = .unknown ∧ (primitive p s).2.dirData = s.dirData) := by
  obtain ⟨hclock, hdata⟩ := primitive_dirs ha
  cases hq with
  | data => exact ⟨fun _ => ⟨hdata, hclock⟩, nofun⟩
  | clock => exact ⟨nofun, fun _ => ⟨hclock, hdata⟩⟩

/-- In the `reference` binding enabling the output drives what the register holds (20_memory.md R66). -/
theorem primitive_configureOutput_clkLvl_ref {s : State} {r : ReferencePins} (hs : s.pins = .ref r) :
    (primitive .configureOutput s).2.clkLvl = driven r.pdSck := by
  rw [primitive_ref hs]
  rfl

/-- Settles O15: each step is one configure primitive, and its answer says how the micro-step ends. -/
theorem initMicroProgram : Obligations.InitMicroProgram := by
  intro c d s hr hpend hcf
  refine ⟨fun v hp ha => ?_, fun v hp ha => ?_, fun p k hp ha => ?_⟩
  · obtain ⟨hclock, hdata⟩ := primitive_dirs ha
    exact ⟨_, execInit_i0 hr hp ha, rfl, primitive_sameRegisters _ s, hdata, hclock, primitive_other_clkLvl rfl,
      Configures.data.edgeArmed, primitive_log ha⟩
  · obtain ⟨hclock, hdata⟩ := primitive_dirs ha
    obtain ⟨hdatapath, hcounters, -, -, -, houtside⟩ := primitive_sameRegisters .configureOutput s
    exact ⟨_, execInit_i1 hr hp ha,
      completedWith_complete .ok ((primitive_cleanupFail _ s).trans hcf) (primitive_iocause _ s) (primitive_log ha),
      by simp [State.config, Config.endPulsesDefault], by simp [State.validity], hdatapath, hcounters, hclock, hdata,
      Configures.clock.edgeArmed, fun a hs => primitive_configureOutput_clkLvl (by rw [hs]; rfl),
      fun r hs => primitive_configureOutput_clkLvl_ref hs, houtside⟩
  · have hq : Configures s.pos p := by
      obtain ⟨hp, rfl⟩ | ⟨hp, rfl⟩ := hp <;> rw [hp] <;> constructor
    obtain ⟨hdatapath, hcounters, hconfig, hvalidity, -, houtside⟩ := primitive_sameRegisters p s
    obtain ⟨hdir0, hdir1⟩ := hq.fail_dirs ha
    exact ⟨_, execInit_fail hq hr hpend ha,
      completedWith_complete _ ((primitive_cleanupFail p s).trans hcf) rfl (primitive_log ha), hdir0, hdir1, hvalidity,
      hconfig, hdatapath, hcounters, hq.fail_clkLvl ha, hq.edgeArmed, houtside⟩

/-! ### A command in progress in the `abstract` binding -/

/-- `u` stands at `p` in a command of the `abstract` binding that was accepted from the port of `s` (20_memory.md R67,
41_lifecycle.md R150): nothing has failed and no register has changed but the response fields, the pin layer is `a`, the
coming answers are `rest`, and the command's trace so far, newest event first, is `tr`. -/
structure Underway (s : State) (p : Pos) (a : AbstractPins) (rest : List (Option Answer)) (tr : List Obs) (u : State) :
    Prop where
  datapath : u.datapath = s.datapath
  counters : u.counters = s.counters
  config : u.config = s.config
  validity : u.validity = s.validity
  outcome : u.outcome = freshOutcome
  params : u.params = s.params
  ready : u.ready = true
  rstn : u.rstn = []
  cmds : u.cmds = s.cmds.tail
  pos : u.pos = p
  pins : u.pins = .abstr a
  replies : u.replies = rest
  log : u.log = tr ++ s.log

theorem underway_begin {s : State} {a : AbstractPins} {rest : List (Option Answer)} (hr : s.ready = true)
    (hn : s.rstn = []) (hpins : s.pins = .abstr a) (hreplies : s.replies = rest) (p : Pos) :
    Underway s p a rest [] (begin p (accepted (taken s))) where
  datapath := accepted_datapath (taken s)
  counters := accepted_counters (taken s)
  config := accepted_config (taken s)
  validity := accepted_validity (taken s)
  outcome := begin_accepted_outcome p (taken s)
  params := accepted_params (taken s)
  ready := (accepted_ready (taken s)).trans hr
  rstn := by simp [hn]
  cmds := accepted_cmds (taken s)
  pos := rfl
  pins := by simp [cycle_abstr (s := taken s) hpins, hpins]
  replies := (accepted_replies (taken s)).trans hreplies
  log := accepted_log (taken s)

/-- The handles are in `CFG`, so an event names the same pin while `CFG` stays. -/
theorem okEvent_congr {s t : State} (h : t.config = s.config) (p : Prim) (b : Bool) : okEvent t p b = okEvent s p b := by
  simp only [State.config, Prod.mk.injEq] at h
  obtain ⟨-, hcpin, hdpin⟩ := h
  cases p <;> simp [okEvent, Prim.pin, State.handle, hcpin, hdpin]

namespace Underway

variable {s u : State} {i : Instr} {p : Pos} {a : AbstractPins} {rest : List (Option Answer)} {tr : List Obs}

theorem tick (h : Underway s p a rest tr u) : Underway s p a rest tr (tick u) :=
  { h with rstn := by simp [h.rstn] }

theorem goto (h : Underway s p a rest tr u) (q : Pos) : Underway s q a rest tr (goto q u) :=
  { h with pos := rfl }

theorem delay (h : Underway s p a rest tr u) {n : Nat} (hn : n ≠ 0) :
    Underway s p a rest (.delay n :: tr) (delay n u) := by
  rw [delay_abstr h.pins hn]
  exact { h with log := congrArg (.delay n :: ·) h.log }

theorem answerTo (h : Underway s p a (some (.ok false) :: rest) tr u) (q : Prim) : u.answerTo q = some (.ok false) := by
  rw [answerTo_reply h.pins h.replies, settle_ok_false]

/-- A primitive answered Ok (20_memory.md R65). -/
theorem primitive (h : Underway s p a (some (.ok false) :: rest) tr u) (q : Prim) :
    Underway s p (a.after q (.ok false)) rest (okEvent s q false :: tr) (primitive q u).2 := by
  have heq : Machine.primitive q u = (some (.ok false), answered q (.ok false) (.abstr (a.after q (.ok false)))
      { u with replies := rest }) := by
    rw [primitive_reply h.pins h.replies, settle_ok_false]
  rw [heq]
  exact { h with
    pins := rfl
    replies := rfl
    log := by rw [← okEvent_congr h.config, List.cons_append, ← h.log]; rfl }

/-- The position says which command runs (10_state.md R23). -/
theorem running (h : Underway s p a rest tr u) : u.running = (Machine.goto p s).running := by
  have hconfig := h.config
  simp only [State.config, Prod.mk.injEq] at hconfig
  obtain ⟨-, hcpin, hdpin⟩ := hconfig
  rw [State.running, State.running, phase_eq, phase_eq, h.pos, hcpin, hdpin]
  rfl

theorem step_eq (h : Underway s p a rest tr u) (hi : (Machine.goto p s).running = some i) :
    step u = exec i (Machine.tick u) :=
  step_running (by simp [State.inReset, h.rstn]) (h.running.trans hi)

/-- Step `I0` of INIT, answered Ok (41_lifecycle.md R151). -/
theorem step_i0 (h : Underway s .i0 a (some (.ok false) :: rest) tr u) :
    ∃ w, step u = .next w ∧ w.dirData = .input ∧
      Underway s .i1 a rest (okEvent s .configureInput false :: tr) w := by
  have ha := h.tick.answerTo .configureInput
  obtain ⟨-, hdata⟩ := primitive_dirs ha
  exact ⟨_, (h.step_eq rfl).trans (execInit_i0 h.tick.ready h.tick.pos ha), hdata,
    (h.tick.primitive .configureInput).goto .i1⟩

/-- Step `I1` of INIT, answered Ok: what INIT writes at its end, it writes over `w` (41_lifecycle.md R151). -/
theorem step_i1 (h : Underway s .i1 a (some (.ok false) :: rest) tr u) :
    ∃ w, step u = .next (complete .ok { w with endpulses := Config.endPulsesDefault, initialised := true }) ∧
      w.dirClock = .output ∧ w.dirData = u.dirData ∧
      Underway s .i1 a rest (okEvent s .configureOutput false :: tr) w := by
  have ha := h.tick.answerTo .configureOutput
  obtain ⟨hclock, hdata⟩ := primitive_dirs ha
  exact ⟨_, (h.step_eq rfl).trans (execInit_i1 h.tick.ready h.tick.pos ha), hclock, hdata,
    h.tick.primitive .configureOutput⟩

/-- A step that writes the clock line and is answered Ok (41_lifecycle.md R153, R155). -/
theorem step_write {l : Level} {k : State → State} (h : Underway s p a (some (.ok false) :: rest) tr u)
    (hi : (Machine.goto p s).running = some i) (hx : exec i (Machine.tick u) = writeClock l k (Machine.tick u)) :
    ∃ w, step u = .next (k w) ∧
      Underway s p ⟨driven (decide (l = .high)), a.edgeArmed⟩ rest (okEvent s (.writeLevel l) false :: tr) w := by
  refine ⟨_, (h.step_eq hi).trans (hx.trans (writeClock_answered h.tick.ready (h.tick.answerTo _) k)), ?_⟩
  have hw := h.tick.primitive (.writeLevel l)
  cases l <;> exact hw

/-- Step `RS2` of RESET, the High hold (41_lifecycle.md R153). -/
theorem step_rs2 (h : Underway s .rs2 a rest tr u) (ht : s.params.tResetHold ≠ 0) :
    ∃ w, step u = .next w ∧ Underway s .rs3 a rest (.delay s.params.tResetHold :: tr) w := by
  refine ⟨_, (h.step_eq rfl).trans (execReset_rs2 h.tick.pos), ?_⟩
  rw [h.tick.params]
  exact (h.tick.delay ht).goto .rs3

/-- A command that completes while nothing has failed. -/
theorem completedWith (h : Underway s p a rest tr u) : CompletedWith s (complete .ok u) .ok false .clear tr := by
  have houtcome := h.outcome
  simp only [State.outcome, freshOutcome, Prod.mk.injEq] at houtcome
  obtain ⟨-, -, -, hcf, hio⟩ := houtcome
  exact completedWith_complete .ok hcf hio h.log

end Underway

/-! ### INIT (O30) -/

/-- Settles O30: the acceptance latches the identifiers, and each of the two steps configures its pin. -/
theorem initRun : Obligations.InitRun := by
  intro s a c d cs rest _ hp hr hn hpins hs hc hd hcmds hreplies
  have hv : step s = .next (begin .i0 (initLatched c d (accepted (taken s)))) := by
    rw [step_offered hp (by simp [State.inReset, hn]) hcmds (decodeEncodeIdentity _),
      execInit_accepts (s := taken s) hp hs fun _ => hr, initAccept_valid (s := taken s) hc hd]
  have h0 : Underway (initLatched c d s) .i0 a _ [] (begin .i0 (initLatched c d (accepted (taken s)))) :=
    { underway_begin hr hn hpins hreplies .i0 with
      config := congrArg (·, c, d) (accepted_endpulses (taken s))
      validity := rfl }
  obtain ⟨u, hu, hinput, h1⟩ := h0.step_i0
  obtain ⟨w, hw, houtput, hdata, h2⟩ := h1.step_i1
  have hrun : Sys2Proof.core.run 3 s =
      .next (complete .ok { w with endpulses := Config.endPulsesDefault, initialised := true }) :=
    (core_run_next hv 2).trans ((core_run_next hu 1).trans (core_run_next hw 0))
  obtain ⟨houtcome, -, -, htrace⟩ := h2.completedWith
  have hresult : w.result = s.result := congrArg Prod.snd h2.datapath
  have hhandles : (w.cpin, w.dpin) = (c, d) := congrArg Prod.snd h2.config
  have hvalid : w.resultValid = false := congrArg Prod.fst h2.validity
  have hcs : w.cmds = cs := h2.cmds.trans (congrArg List.tail hcmds)
  refine ⟨_, hrun, rfl, congrArg (1, ·) hhandles, congrArg (·, true) hvalid, houtcome, h2.datapath, h2.counters,
    hdata.trans hinput, houtput, h2.pins.trans hpins.symm, hcs, h2.replies, htrace.trans ?_⟩
  rw [complete_result, hresult]
  rfl

/-! ### RESET and SHUTDOWN (O31, O32) -/

/-- An idle, initialised controller of the `abstract` binding, out of reset and with its pin layer `a` set up; `cs` is on
its command port and `rest` are the coming answers. -/
structure AtRest (s : State) (a : AbstractPins) (cs : List (Option Word)) (rest : List (Option Answer)) : Prop where
  idle : s.pos = .idle
  ready : s.ready = true
  rstn : s.rstn = []
  pins : s.pins = .abstr a
  initialised : s.initialised = true
  handles : s.cpin ≠ s.dpin
  cmds : s.cmds = cs
  replies : s.replies = rest

/-- The trace of a RESET whose writes are answered Ok, newest event first (41_lifecycle.md R153). -/
def resetTrace (s : State) : List Obs :=
  [okEvent s (.writeLevel .low) false, .delay s.params.tResetHold, okEvent s (.writeLevel .high) false,
    okEvent s (.writeLevel .low) false]

theorem tResetHold_ne_zero_of_wf {p : Params} (h : p.wf = true) : p.tResetHold ≠ 0 := by
  simp only [Params.wf, Params.timesWf, Bool.and_eq_true, decide_eq_true_eq] at h
  omega

namespace AtRest

variable {s : State} {i : Instr} {p : Pos} {a : AbstractPins} {cs : List (Option Word)} {rest : List (Option Answer)}

/-- The acceptance of RESET or SHUTDOWN from the port (20_memory.md R67). -/
theorem accept (h : AtRest s a (some (encode i) :: cs) rest) (hip : StartsAt i p) :
    ∃ v, step s = .next v ∧ Underway s p a rest [] v := by
  refine ⟨_, ?_, underway_begin h.ready h.rstn h.pins h.replies p⟩
  rw [step_offered h.idle (by simp [State.inReset, h.rstn]) h.cmds (decodeEncodeIdentity i)]
  exact exec_starts (s := taken s) hip h.ready h.idle h.initialised h.handles

/-- A command that completes leaves the controller at rest again, with the next word on its port. -/
theorem completed {o : Option Word} {a' : AbstractPins} {rest' : List (Option Answer)} {tr : List Obs} {w : State}
    (h : AtRest s a (o :: cs) rest) (hw : Underway s p a' rest' tr w) (c : Code) :
    AtRest (complete c w) a' cs rest' where
  idle := rfl
  ready := hw.ready
  rstn := hw.rstn
  pins := hw.pins
  initialised := (congrArg Prod.snd hw.validity).trans h.initialised
  handles := by
    have hconfig := hw.config
    simp only [State.config, Prod.mk.injEq] at hconfig
    simpa [hconfig] using h.handles
  cmds := hw.cmds.trans (congrArg List.tail h.cmds)
  replies := hw.replies

/-- RESET up to its completion (41_lifecycle.md R153). -/
theorem run_reset (h : AtRest s a (some (encode .reset) :: cs) (List.replicate 3 (some (.ok false)) ++ rest))
    (ht : s.params.tResetHold ≠ 0) :
    ∃ w, Sys2Proof.core.run 5 s = .next (complete .ok w) ∧
      Underway s .rs3 ⟨.low, a.edgeArmed⟩ rest (resetTrace s) w := by
  obtain ⟨v, hv, h0⟩ := h.accept .reset
  obtain ⟨u1, hu1, h1⟩ := h0.step_write rfl (execReset_rs0 h0.tick.pos)
  replace h1 := h1.goto .rs1
  obtain ⟨u2, hu2, h2⟩ := h1.step_write rfl (execReset_rs1 h1.tick.pos)
  obtain ⟨u3, hu3, h3⟩ := (h2.goto .rs2).step_rs2 ht
  obtain ⟨w, hw, h4⟩ := h3.step_write rfl (execReset_rs3 h3.tick.pos)
  refine ⟨w, ?_, h4⟩
  calc Sys2Proof.core.run 5 s
      = Sys2Proof.core.run 4 v := core_run_next hv 4
    _ = Sys2Proof.core.run 3 (goto .rs1 u1) := core_run_next hu1 3
    _ = Sys2Proof.core.run 2 (goto .rs2 u2) := core_run_next hu2 2
    _ = Sys2Proof.core.run 1 u3 := core_run_next hu3 1
    _ = .next (complete .ok w) := core_run_next hw 0

/-- SHUTDOWN up to its completion (41_lifecycle.md R155). -/
theorem run_shutdown (h : AtRest s a (some (encode .shutdown) :: cs) (some (.ok false) :: rest)) :
    ∃ w, Sys2Proof.core.run 2 s = .next (complete .ok w) ∧
      Underway s .s0 ⟨.high, a.edgeArmed⟩ rest [okEvent s (.writeLevel .high) false] w := by
  obtain ⟨v, hv, h0⟩ := h.accept .shutdown
  obtain ⟨w, hw, h1⟩ := h0.step_write rfl (execShutdown_s0 h0.tick.pos)
  exact ⟨w, (core_run_next hv 1).trans (core_run_next hw 0), h1⟩

end AtRest

/-- Settles O31: the run of RESET, and what a command that completes leaves alone. -/
theorem resetRun : Obligations.ResetRun := by
  intro s a cs rest hinv hp hr hn hpins hi hne hcmds hreplies
  have h : AtRest s a _ _ := ⟨hp, hr, hn, hpins, hi, hne, hcmds, hreplies⟩
  obtain ⟨w, hrun, hw⟩ := h.run_reset (tResetHold_ne_zero_of_wf hinv.params_wf)
  obtain ⟨houtcome, -, -, htrace⟩ := hw.completedWith
  have hresult : w.result = s.result := congrArg Prod.snd hw.datapath
  obtain ⟨hclk, harm⟩ : (complete .ok w).clkLvl = .low ∧ (complete .ok w).edgeArmed = s.edgeArmed := by
    simp [hw.pins, hpins, PinLayer.clkLvl, PinLayer.edgeArmed]
  refine ⟨_, hrun, rfl, houtcome, hclk, harm, hw.datapath, hw.counters, hw.config, hw.validity,
    hw.cmds.trans (congrArg List.tail hcmds), hw.replies, htrace.trans ?_⟩
  rw [complete_result, hresult]
  rfl

/-- Settles O32: SHUTDOWN leaves the controller at rest with RESET on its port. -/
theorem shutdownThenResetLeavesTheClockLow : Obligations.ShutdownThenResetLeavesTheClockLow := by
  intro s a cs rest hinv hp hr hn hpins hi hne hcmds hreplies
  have h : AtRest s a _ _ := ⟨hp, hr, hn, hpins, hi, hne, hcmds, hreplies⟩
  obtain ⟨u, hrunu, hu⟩ := h.run_shutdown
  have ht : (complete .ok u).params.tResetHold ≠ 0 := by
    rw [complete_params, hu.params]
    exact tResetHold_ne_zero_of_wf hinv.params_wf
  obtain ⟨w, hrunw, hw⟩ := (h.completed hu .ok).run_reset ht
  refine ⟨⟨_, hrunu, rfl, rfl, rfl, ?_⟩, ⟨_, (core_run_add 2 5 hrunu).trans hrunw, rfl, rfl, rfl, ?_⟩⟩
  · simp [hu.pins, PinLayer.clkLvl]
  · simp [hw.pins, PinLayer.clkLvl]

end Sys2Proof.Machine

/-! PROOF. READ (42_read.md): the clock line and the trace as invariants, READ micro-step by micro-step, and whole runs in
the `abstract` binding (O19 to O23, O25, O26, O33 to O35, O39, O41 to O43). -/

namespace Sys2Proof.Machine

/-! ### The clock line (O39) -/

/-- What `ClockInv` asks of `CLKLVL` at the position of `s` (42_read.md R182, R190; 70_reset_and_hazards.md R268). -/
def levelDue (s : State) : Option LineLevel :=
  match s.pos with
  | .rs1 | .w2 | .w3 | .w4 | .b0 | .b3 | .b4 | .e0 | .e3 => some .low
  | .w5 => if s.pend = .ioerr then none else some .low
  | .rs2 | .rs3 | .b1 | .b2 | .e1 | .e2 => some .high
  | .idle | .i0 | .i1 | .rs0 | .s0 | .w0 | .w1 => none

theorem levelDue_low {s : State} : levelDue s = some .low ↔ s.pos = .rs1 ∨ s.pos = .w2 ∨ s.pos = .w3 ∨ s.pos = .w4 ∨
    (s.pos = .w5 ∧ s.pend ≠ .ioerr) ∨ s.pos = .b0 ∨ s.pos = .b3 ∨ s.pos = .b4 ∨ s.pos = .e0 ∨ s.pos = .e3 := by
  cases hp : s.pos <;> simp [levelDue, hp]

theorem levelDue_high {s : State} : levelDue s = some .high ↔
    s.pos = .rs2 ∨ s.pos = .rs3 ∨ s.pos = .b1 ∨ s.pos = .b2 ∨ s.pos = .e1 ∨ s.pos = .e2 := by
  cases hp : s.pos <;> simp [levelDue, hp]

theorem levelDue_ne_unknown (s : State) : levelDue s ≠ some .unknown := by
  cases hp : s.pos <;> simp [levelDue, hp]

theorem clockInv_iff (s : State) : ClockInv s ↔
    (∀ l, levelDue s = some l → s.clkLvl = l) ∧ (s.initialised = true → lineDriven s.pins = true) := by
  rw [← drives_iff]
  refine ⟨fun ⟨hl, hh, hd⟩ => ⟨fun l h => ?_, hd⟩,
    fun ⟨h, hd⟩ => ⟨fun hp => h _ (levelDue_low.mpr hp), fun hp => h _ (levelDue_high.mpr hp), hd⟩⟩
  cases l with
  | low => exact hl (levelDue_low.mp h)
  | high => exact hh (levelDue_high.mp h)
  | unknown => exact absurd h (levelDue_ne_unknown s)

theorem levelDue_idle {s : State} (hp : s.pos = .idle) : levelDue s = none := by rw [levelDue, hp]

/-- An acceptance asks nothing of the clock line (41_lifecycle.md R150). -/
theorem Accepts.levelDue {w : Option Word} {u t : State} (h : Accepts w u t) (hp : u.pos = .idle) :
    levelDue t = none := by
  cases h with
  | quiet => exact levelDue_idle ((cycle_pos u).trans hp)
  | _ => rfl

/-- A micro-step of a command leaves the line where the same level is due, makes the level that is due, or ends where
none is. -/
theorem Works.level {u t : State} (h : Works u t) (hd : u.pos.phase ≠ .init → lineDriven u.pins = true) :
    (levelDue t = levelDue u ∧ t.clkLvl = u.clkLvl) ∨ levelDue t = none ∨ levelDue t = some t.clkLvl := by
  have hwrite {l : Level} {v : Bool} (ha : u.answerTo (.writeLevel l) = some (.ok v))
      (hp : u.pos.phase ≠ .init) : (primitive (.writeLevel l) u).2.clkLvl = driven (decide (l = .high)) :=
    primitive_write_clkLvl ha (hd hp)
  have hdata {p : Prim} (hp : p.pin = .data := by rfl) := primitive_other_clkLvl (s := u) hp
  cases h with
  | wait p hp hr ha =>
    obtain ⟨r, n, e⟩ := primitive_unanswered ha
    rw [e]
    exact .inl ⟨rfl, rfl⟩
  | rs0 v hp hr ha | rs1 v hp hr ha | w1 v hp hr ha =>
    exact .inr (.inr (congrArg some (hwrite ha (by simp [hp, Pos.phase])).symm))
  | rise p q v hp hq h0 hr ha =>
    refine .inr (.inr (.trans ?_ (congrArg some (hwrite ha ?_).symm)))
    · obtain ⟨-, rfl⟩ | ⟨-, rfl⟩ | ⟨-, rfl⟩ | ⟨-, rfl⟩ := hq <;> rfl
    · obtain ⟨rfl, -⟩ | ⟨rfl, -⟩ | ⟨rfl, -⟩ | ⟨rfl, -⟩ := hq <;> simp [hp, Pos.phase]
  | fall p q v hp hq h0 hr ha =>
    refine .inr (.inr (.trans ?_ (congrArg some (hwrite ha ?_).symm)))
    · obtain ⟨-, rfl⟩ | ⟨-, rfl⟩ | ⟨-, rfl⟩ := hq <;> rfl
    · obtain ⟨rfl, -⟩ | ⟨rfl, -⟩ | ⟨rfl, -⟩ := hq <;> simp [hp, Pos.phase]
  | countFall v hp h0 hr ha =>
    obtain e | e := countPulse_cases (primitive (.writeLevel .low) u).2 <;> rw [e]
    · exact .inr (.inl rfl)
    · exact .inr (.inr (congrArg some (hwrite ha (by simp [hp, Pos.phase])).symm))
  | count hp =>
    obtain e | e := countPulse_cases (delay u.params.tLow u) <;> rw [e]
    · exact .inr (.inl rfl)
    · exact .inl ⟨by rw [levelDue, levelDue, hp]; rfl, delay_clkLvl _ u⟩
  | rs2 hp | w4Last hp | w4More hp | b3 hp =>
    exact .inl ⟨by rw [levelDue, levelDue, hp]; rfl, delay_clkLvl _ u⟩
  | hold p q hp hq =>
    refine .inl ⟨?_, delay_clkLvl _ u⟩
    rw [levelDue, levelDue, hp]
    obtain ⟨rfl, rfl⟩ | ⟨rfl, rfl⟩ := hq <;> rfl
  | w2Low hp | w2High hp | w3Edge hp | w3None hp =>
    exact .inl ⟨by rw [levelDue, levelDue, hp]; rfl, hdata⟩
  | w5Shift v hp hd => exact .inl ⟨by rw [levelDue, levelDue, hp, hd]; rfl, hdata⟩
  | b4 v q hp hq => exact .inl ⟨by by_cases h24 : u.bitcnt + 1 = 24 <;> simp [levelDue, hp, hq, h24], hdata⟩
  | _ => exact .inr (.inl rfl)

/-- INIT ends with the line driven, and no other step of a command changes INITIALISED or stops driving it
(20_memory.md R66). -/
theorem Works.driven {u t : State} (h : Works u t) (hd : u.initialised = true → lineDriven u.pins = true) :
    t.initialised = true → lineDriven t.pins = true := by
  have hstay (he : t.initialised = u.initialised) (hi : t.initialised = true) : lineDriven t.pins = true := by
    have hu := hd (he.symm.trans hi)
    obtain ⟨-, ⟨p, -, hl⟩ | ⟨n, hl⟩⟩ := h.lines <;> rw [pins_of_lines hl]
    · exact primitive_lineDriven hu
    · rwa [delay_lineDriven]
  cases h with
  | i1 v hp hr ha => exact fun _ => primitive_configureOutput_lineDriven ha
  | _ => exact hstay (by simp [failWith, waitFailed])

theorem Accepts.driven {w : Option Word} {u t : State} (h : Accepts w u t)
    (hd : u.initialised = true → lineDriven u.pins = true) : t.initialised = true → lineDriven t.pins = true := by
  obtain ⟨-, -, hl⟩ := h.lines
  rw [pins_of_lines hl, cycle_lineDriven]
  obtain he | ⟨he, -⟩ := h.initialised <;> rw [he]
  · exact hd
  · simp

/-- Settles O39: a write makes the level that is due, and no other step between two writes touches the line. -/
theorem clockLevelKept : Obligations.ClockLevelKept := by
  intro s t hinv h ht
  obtain ⟨hlevel, hdriven⟩ := (clockInv_iff s).mp h
  rw [clockInv_iff]
  obtain ⟨-, rfl⟩ | ⟨-, hp, ha⟩ | ⟨-, hp, hw⟩ := step_cases ht
  · exact ⟨by simp [levelDue], by simp⟩
  · exact ⟨by simp [ha.levelDue hp], ha.driven hdriven⟩
  · have hinit (hphase : s.pos.phase ≠ .init) : s.initialised = true :=
      (hinv.running (by simpa using hp) hphase).1
    refine ⟨fun l hl => ?_, hw.driven hdriven⟩
    obtain ⟨hdue, hclk⟩ | hdue | hdue := hw.level fun hphase => hdriven (hinit hphase)
    · exact hclk.trans (hlevel l (hdue.symm.trans hl))
    · simp [hdue] at hl
    · exact Option.some.inj (hdue.symm.trans hl)

/-! ### The trace of the command in progress (O41) -/

theorem tPoll_ne_zero_of_wf {p : Params} (h : p.wf = true) : p.tPoll ≠ 0 := by
  simp only [Params.wf, Params.timesWf, Bool.and_eq_true, decide_eq_true_eq] at h
  omega

/-- The micro-step from `u` to `t` adds the events `ev` to the command's trace. -/
def TraceGrows (u t : State) (ev : List Obs) : Prop := commandTrace t.log = ev ++ commandTrace u.log

theorem primitive_traceGrows {p : Prim} {s : State} {a : Answer} (h : s.answerTo p = some a) :
    TraceGrows s (primitive p s).2 [.prim p (s.handle p.pin) a] := by
  rw [TraceGrows, primitive_log h]; rfl

theorem delay_traceGrows (n : Nat) (s : State) : TraceGrows s (delay n s) (delayTrace n) := by
  rw [TraceGrows, delay_log_append, delayTrace]
  split <;> rfl

@[simp] theorem countP_isRise_delayTrace (n : Nat) : (delayTrace n).countP Obs.isRise = 0 := by
  unfold delayTrace; split <;> rfl
@[simp] theorem countP_isFall_delayTrace (n : Nat) : (delayTrace n).countP Obs.isFall = 0 := by
  unfold delayTrace; split <;> rfl
@[simp] theorem countP_isFruitlessPoll_delayTrace (n : Nat) : (delayTrace n).countP Obs.isFruitlessPoll = 0 := by
  unfold delayTrace; split <;> rfl
@[simp] theorem levelsIn_delayTrace (n : Nat) : levelsIn (delayTrace n) = [] := by
  unfold delayTrace; split <;> rfl
theorem countP_isDelay_delayTrace {n : Nat} (h : n ≠ 0) : (delayTrace n).countP (Obs.isDelay n) = 1 := by
  simp [delayTrace, h]

theorem levelsIn_reverse (tr : List Obs) : levelsIn tr.reverse = (levelsIn tr).reverse := List.filterMap_reverse

/-! #### Where nothing has been traced, and in the lifecycle commands -/

theorem traceInv_of_nil {s : State}
    (hp : s.pos = .idle ∨ s.pos = .i0 ∨ s.pos = .rs0 ∨ s.pos = .s0 ∨ s.pos = .w0) (ht : commandTrace s.log = [])
    (h0 : s.pos = .w0 → s.pollcnt = 0) : TraceInv s := by
  obtain hp | hp | hp | hp | hp := hp <;> simp only [hp, true_implies] at h0 <;>
    constructor <;> simp [hp, ht, h0, Pos.phase, Phase.isRead, risesDue, fallsDue]

/-- In INIT, RESET and SHUTDOWN only the rising writes are told. -/
theorem traceInv_lifecycle {s : State} (hp : s.pos = .i1 ∨ s.pos = .rs1 ∨ s.pos = .rs2 ∨ s.pos = .rs3)
    (hr : (commandTrace s.log).countP Obs.isRise = risesDue s) : TraceInv s := by
  obtain hp | hp | hp | hp := hp <;> constructor <;> simp [hp, hr, Pos.phase, Phase.isRead]

theorem TraceInv.lifecycle_step {u t : State} {ev : List Obs} (h : TraceInv u) (hg : TraceGrows u t ev)
    (hp : t.pos = .i1 ∨ t.pos = .rs1 ∨ t.pos = .rs2 ∨ t.pos = .rs3)
    (hr : risesDue t = ev.countP Obs.isRise + risesDue u) : TraceInv t :=
  traceInv_lifecycle hp (by rw [hg, List.countP_append, h.rises, hr])

/-! #### The wait phase -/

/-- The number of samples in the trace of a READ that waits (42_read.md R183). -/
def samplesDue (s : State) : Nat :=
  match s.pos with
  | .w3 | .w4 | .w5 => 1
  | _ => 0

/-- What `TraceInv` says in the wait phase while nothing has failed (42_read.md R182 to R185). -/
structure Waiting (s : State) : Prop where
  rises : (commandTrace s.log).countP Obs.isRise = 0
  falls : (commandTrace s.log).countP Obs.isFall = fallsDue s
  polls : (commandTrace s.log).countP Obs.isFruitlessPoll = s.pollcnt
  delays : (commandTrace s.log).countP (Obs.isDelay s.params.tPoll) + (if s.pos = .w4 then 1 else 0) = s.pollcnt
  samples : (levelsIn (commandTrace s.log)).length = samplesDue s

theorem risesDue_wait {s : State} (hp : s.pos.phase = .wait) : risesDue s = 0 := by
  cases h : s.pos <;> simp_all [Pos.phase, risesDue]

theorem TraceInv.waiting {s : State} (h : TraceInv s) (hp : s.pos.phase = .wait) (h5 : s.pos = .w5 → s.pend ≠ .ioerr) :
    Waiting s where
  rises := h.rises.trans (risesDue_wait hp)
  falls := h.falls (by rw [hp]; rfl) h5
  polls := h.polls hp
  delays := h.pollDelays hp
  samples := by
    cases e : s.pos <;> rw [e] at hp <;> cases hp
    · simp [samplesDue, e, h.idle (by simp [e])]
    · simp [samplesDue, e, h.unsampled (by simp [e])]
    · simp [samplesDue, e, h.unsampled (by simp [e])]
    · simp [samplesDue, e, h.sampled (by simp [e])]
    · simp [samplesDue, e, h.sampled (by simp [e])]
    · simp [samplesDue, e, h.sampled (by simp [e, h5 e])]

theorem Waiting.traceInv {s : State} (h : Waiting s) (hp : s.pos.phase = .wait) (h0 : s.pos ≠ .w0) : TraceInv s where
  idle := by rintro (e | e | e | e | e) <;> simp_all [Pos.phase]
  rises := h.rises.trans (risesDue_wait hp).symm
  falls _ _ := h.falls
  polls _ := h.polls
  pollDelays _ := h.delays
  sampled := by rintro (e | e | ⟨e, -⟩) <;> simp [h.samples, samplesDue, e]
  unsampled := by rintro (e | e) <;> simpa [samplesDue, e] using h.samples
  acc := by simp [hp]

/-- After a failure in the wait phase nothing is said of the falling writes and the samples (42_read.md R182, R183). -/
theorem traceInv_failed {s : State} (hp : s.pos = .w5) (hd : s.pend = .ioerr)
    (hr : (commandTrace s.log).countP Obs.isRise = 0)
    (hk : (commandTrace s.log).countP Obs.isFruitlessPoll = s.pollcnt)
    (hn : (commandTrace s.log).countP (Obs.isDelay s.params.tPoll) = s.pollcnt) : TraceInv s := by
  constructor <;> simp [hp, hd, hr, hk, hn, Pos.phase, risesDue]

/-- A step of the wait phase: the numbers that are due grow as those of the trace do. -/
theorem Waiting.step {u t : State} {ev : List Obs} (h : Waiting u) (hg : TraceGrows u t ev)
    (hparams : t.params = u.params) (hrise : ev.countP Obs.isRise = 0)
    (hfall : fallsDue t = ev.countP Obs.isFall + fallsDue u)
    (hpoll : t.pollcnt = ev.countP Obs.isFruitlessPoll + u.pollcnt)
    (hdelay : t.pollcnt + (if u.pos = .w4 then 1 else 0) =
      ev.countP (Obs.isDelay u.params.tPoll) + (if t.pos = .w4 then 1 else 0) + u.pollcnt)
    (hsample : samplesDue t = (levelsIn ev).length + samplesDue u) (hp : t.pos.phase = .wait := by rfl)
    (h0 : t.pos ≠ .w0 := by simp) : TraceInv t := by
  refine Waiting.traceInv ⟨?_, ?_, ?_, ?_, ?_⟩ hp h0
  · rw [hg, List.countP_append, hrise, h.rises]
  · rw [hg, List.countP_append, h.falls, hfall]
  · rw [hg, List.countP_append, h.polls, hpoll]
  · have := h.delays
    rw [hg, List.countP_append, hparams]
    omega
  · rw [hg, levelsIn_append, List.length_append, h.samples, hsample]

/-! #### The shift and end-pulse phases -/

/-- What `TraceInv` says while the frame is clocked out (42_read.md R188 to R191). -/
structure Framing (s : State) : Prop where
  rises : (commandTrace s.log).countP Obs.isRise = risesDue s
  falls : (commandTrace s.log).countP Obs.isFall = fallsDue s
  levels : ∃ l ls, levelsIn (commandTrace s.log).reverse = l :: ls ∧ ls.length = s.bitcnt ∧ s.acc = shiftAll ls

theorem TraceInv.framing {s : State} (h : TraceInv s) (hp : s.pos.phase = .shift ∨ s.pos.phase = .endpulse) :
    Framing s where
  rises := h.rises
  falls := h.falls (by obtain hp | hp := hp <;> rw [hp] <;> rfl)
    (fun e => by simp [e, Pos.phase] at hp)
  levels := h.acc hp

theorem Framing.traceInv {s : State} (h : Framing s) (hp : s.pos.phase = .shift ∨ s.pos.phase = .endpulse) :
    TraceInv s := by
  have hw : s.pos.phase ≠ .wait := by obtain hp | hp := hp <;> simp [hp]
  exact {
    idle := by rintro (e | e | e | e | e) <;> simp [e, Pos.phase] at hp
    rises := h.rises
    falls := fun _ _ => h.falls
    polls := fun e => absurd e hw
    pollDelays := fun e => absurd e hw
    sampled := by rintro (e | e | ⟨e, -⟩) <;> simp [e, Pos.phase] at hw
    unsampled := by rintro (e | e) <;> simp [e, Pos.phase] at hw
    acc := fun _ => h.levels }

/-- A step of a pulse: writes and delays, but no sample (42_read.md R188, R191). -/
theorem Framing.step {u t : State} {ev : List Obs} (h : Framing u) (hg : TraceGrows u t ev)
    (hrise : risesDue t = ev.countP Obs.isRise + risesDue u) (hfall : fallsDue t = ev.countP Obs.isFall + fallsDue u)
    (hsample : levelsIn ev = []) (hbit : t.bitcnt = u.bitcnt) (hacc : t.acc = u.acc)
    (hp : t.pos.phase = .shift ∨ t.pos.phase = .endpulse := by simp [Pos.phase]) : TraceInv t := by
  refine Framing.traceInv ⟨?_, ?_, ?_⟩ hp
  · rw [hg, List.countP_append, h.rises, hrise]
  · rw [hg, List.countP_append, h.falls, hfall]
  · rw [hg, List.reverse_append, levelsIn_append, levelsIn_reverse ev, hsample, List.reverse_nil, List.append_nil,
      hbit, hacc]
    exact h.levels

/-- A sampled bit is shifted in after the earlier ones (42_read.md R189). -/
theorem Framing.sample {u t : State} {x : PinId} {v : Bool} (h : Framing u)
    (hg : TraceGrows u t [.prim .readLevel x (.ok v)]) (hrise : risesDue t = risesDue u)
    (hfall : fallsDue t = fallsDue u) (hbit : t.bitcnt = u.bitcnt + 1) (hacc : t.acc = shiftIn u.acc (levelOf v))
    (hp : t.pos.phase = .shift ∨ t.pos.phase = .endpulse) : TraceInv t := by
  obtain ⟨l, ls, hl, hlen, ha⟩ := h.levels
  refine Framing.traceInv ⟨?_, ?_, l, ls ++ [levelOf v], ?_, by simp [hlen, hbit], by rw [hacc, ha, shiftAll_snoc]⟩ hp
  · rw [hg, hrise, ← h.rises]; rfl
  · rw [hg, hfall, ← h.falls]; rfl
  · rw [hg, List.reverse_append, levelsIn_append, hl]; rfl

/-- The disarm on the success path: the one sample so far is the one of `W2` (42_read.md R187). -/
theorem Waiting.shift {u t : State} {x : PinId} {a : Answer} (h : Waiting u) (hp : u.pos = .w5)
    (hg : TraceGrows u t [.prim .disarmEdge x a]) (hq : t.pos = .b0) (hbit : t.bitcnt = 0) (hacc : t.acc = 0) :
    TraceInv t := by
  have hs := h.samples
  rw [samplesDue, hp, List.length_eq_one_iff] at hs
  obtain ⟨l, hl⟩ := hs
  refine Framing.traceInv ⟨?_, ?_, l, [], ?_, hbit.symm, hacc⟩ (.inl (by rw [hq]; rfl))
  · rw [hg, risesDue, hq]; simpa [hbit] using h.rises
  · rw [hg, fallsDue, hq]; simpa [hbit, fallsDue, hp] using h.falls
  · rw [hg, List.reverse_append, levelsIn_append, levelsIn_reverse, hl]; rfl

/-- The counting of an end pulse: another pulse starts, or the command ends (42_read.md R191, R192). -/
theorem Framing.countPulse {u v : State} {ev : List Obs} (h : Framing u) (hg : TraceGrows u v ev)
    (hrise : 24 + (v.pulsecnt + 1) = ev.countP Obs.isRise + risesDue u)
    (hfall : 25 + (v.pulsecnt + 1) = ev.countP Obs.isFall + fallsDue u) (hsample : levelsIn ev = [])
    (hbit : v.bitcnt = u.bitcnt) (hacc : v.acc = u.acc) : TraceInv (countPulse v) := by
  obtain e | e := countPulse_cases v <;> rw [e]
  · exact traceInv_of_nil (.inl rfl) rfl nofun
  · exact h.step hg hrise hfall hsample hbit hacc

/-! #### Every step -/

theorem Accepts.traceInv {w : Option Word} {u t : State} (ha : Accepts w u t) (h : TraceInv u) (hp : u.pos = .idle) :
    TraceInv t := by
  have hnil : commandTrace u.log = [] := h.idle (.inl hp)
  have hacc : commandTrace (accepted u).log = [] := by rw [accepted_log, hnil]
  cases ha with
  | quiet => exact traceInv_of_nil (by simp [hp]) (by rw [cycle_log, hnil]) (by simp [hp])
  | init | reset | shutdown => exact traceInv_of_nil (by simp) hacc (by simp)
  | read => exact traceInv_of_nil (by simp) hacc (fun _ => rfl)
  | illegal | initClock | initData | notInitialised | setgain | setgainZero =>
    exact traceInv_of_nil (.inl rfl) rfl nofun

/-- A micro-step of a command in progress keeps its trace in agreement with its position. -/
theorem Works.traceInv {u t : State} (hw : Works u t) (hinv : Inv u) (h : TraceInv u) : TraceInv t := by
  have hg {p : Prim} {a : Answer} (ha : u.answerTo p = some a) := primitive_traceGrows ha
  have hgd (n : Nat) := delay_traceGrows n u
  have hwaiting (hp : u.pos.phase = .wait) (h5 : u.pos = .w5 → u.pend ≠ .ioerr := by simp [*]) := h.waiting hp h5
  cases hw with
  | wait p hp hr ha =>
    obtain ⟨r, n, e⟩ := primitive_unanswered ha
    rw [e]
    exact { h with }
  | i0 v hp hr ha | rs0 v hp hr ha | rs1 v hp hr ha =>
    exact h.lifecycle_step (hg ha) (by simp) (by rw [risesDue, risesDue, hp]; rfl)
  | rs2 hp =>
    exact h.lifecycle_step (hgd _) (by simp) (by rw [risesDue, risesDue, hp, countP_isRise_delayTrace]; rfl)
  | w0 v hp hr ha | w1 v hp hr ha | w2Low hp hr ha | w2High hp hr ha | w3Edge hp hr ha | w3None hp hr ha =>
    refine (hwaiting (by rw [hp]; rfl)).step (hg ha) ?_ ?_ ?_ ?_ ?_ ?_ <;>
      simp [fallsDue, samplesDue, hp, Nat.add_comm]
  | w4Last hp | w4More hp =>
    have ht := tPoll_ne_zero_of_wf hinv.params_wf
    refine (hwaiting (by rw [hp]; rfl)).step (hgd _) ?_ ?_ ?_ ?_ ?_ ?_ <;>
      simp [fallsDue, samplesDue, hp, countP_isDelay_delayTrace ht, Nat.add_comm]
  | waitFail p k hp hq hr ha =>
    have hph : u.pos.phase = .wait := by obtain hp | hp | hp := hp <;> rw [hp] <;> rfl
    have h4 : u.pos ≠ .w4 := by obtain hp | hp | hp := hp <;> simp [hp]
    have h5 : u.pos ≠ .w5 := by obtain hp | hp | hp := hp <;> simp [hp]
    have hwait := h.waiting hph (fun e => absurd e h5)
    have hlog : commandTrace (waitFailed p k (primitive p u).2).log = _ :=
      (congrArg commandTrace (failIo_log p k _)).trans (hg ha)
    refine traceInv_failed rfl rfl ?_ ?_ ?_ <;> rw [hlog]
    · simpa using hwait.rises
    · simpa [waitFailed] using hwait.polls
    · simpa [waitFailed, h4] using hwait.delays
  | w5Shift v hp hd hr ha =>
    have hph : u.pos.phase = .wait := by rw [hp]; rfl
    refine (hwaiting hph).shift hp (hg ha) rfl ?_ ?_
    · simpa using hinv.bitcnt_zero hph
    · simpa using hinv.acc hph
  | rise p q v hp hq h0 hr ha =>
    obtain ⟨rfl, rfl⟩ | ⟨rfl, rfl⟩ | ⟨rfl, rfl⟩ | ⟨rfl, rfl⟩ := hq <;>
    · refine (h.framing (by simp [hp, Pos.phase])).step (hg ha) ?_ ?_ rfl ?_ ?_ <;>
        simp +arith [risesDue, fallsDue, hp]
  | hold p q hp hq =>
    obtain ⟨rfl, rfl⟩ | ⟨rfl, rfl⟩ := hq <;>
    · refine (h.framing (by simp [hp, Pos.phase])).step (hgd _) ?_ ?_ ?_ ?_ ?_ <;>
        simp [risesDue, fallsDue, hp]
  | fall p q v hp hq h0 hr ha =>
    obtain ⟨rfl, rfl⟩ | ⟨rfl, rfl⟩ | ⟨rfl, rfl⟩ := hq <;>
    · refine (h.framing (by simp [hp, Pos.phase])).step (hg ha) ?_ ?_ rfl ?_ ?_ <;>
        simp +arith [risesDue, fallsDue, hp]
  | b3 hp =>
    refine (h.framing (by simp [hp, Pos.phase])).step (hgd _) ?_ ?_ ?_ ?_ ?_ <;>
      simp [risesDue, fallsDue, hp]
  | b4 v q hp hq hr ha =>
    have hph : u.pos.phase = .shift := by rw [hp]; rfl
    have hpulses := hinv.pulsecnt_zero (.inr hph)
    by_cases h24 : u.bitcnt + 1 = 24
    · have h23 : u.bitcnt = 23 := by omega
      refine (h.framing (.inl hph)).sample (hg ha) ?_ ?_ rfl rfl ?_ <;>
        simp [risesDue, fallsDue, hp, hq, h23, hpulses, Pos.phase]
    · refine (h.framing (.inl hph)).sample (hg ha) ?_ ?_ rfl rfl ?_ <;>
        simp [risesDue, fallsDue, hp, hq, h24, Pos.phase]
  | countFall v hp h0 hr ha =>
    refine (h.framing (by simp [hp, Pos.phase])).countPulse (hg ha) ?_ ?_ rfl ?_ ?_ <;>
      simp +arith [risesDue, fallsDue, hp]
  | count hp =>
    refine (h.framing (by simp [hp, Pos.phase])).countPulse (hgd _) ?_ ?_ ?_ ?_ ?_ <;>
      simp +arith [risesDue, fallsDue, hp]
  | _ => exact traceInv_of_nil (.inl rfl) rfl nofun

/-- Settles O41: an acceptance starts from an empty trace, and every micro-step adds to the trace what its position says. -/
theorem traceAgreesWithPosition : Obligations.TraceAgreesWithPosition := by
  intro s t hinv h ht
  obtain ⟨-, rfl⟩ | ⟨-, hp, ha⟩ | ⟨-, -, hw⟩ := step_cases ht
  · exact traceInv_of_nil (.inl rfl) rfl nofun
  · exact ha.traceInv { h with } hp
  · exact hw.traceInv hinv.tick { h with }

/-! ### How a READ ends (O42, O43) -/

/-- The last step of the last end pulse, with the event it adds: the Low delay, or the falling write when `T_LOW` is 0
(42_read.md R191). -/
def LastPulseStep (u : State) (ev : List Obs) : Prop :=
  u.pos = .e3 ∧ ev = delayTrace u.params.tLow ∨ u.pos = .e2 ∧ ∃ v, ev = [.prim (.writeLevel .low) u.cpin (.ok v)]

/-- How a micro-step from `u` ends a READ in `t`, over the events `ev` it adds to the trace (42_read.md R187, R192,
R193). -/
inductive ReadEnds (u t : State) (ev : List Obs) : Prop where
  | ok (hp : LastPulseStep u ev) (hn : u.pulsecnt + 1 = u.endpulses.toNat) (hv : t.resultValid = true)
      (hc : t.code = .ok)
  | timeout (a : Answer) (hp : u.pos = .w5) (hd : u.pend = .timeout) (he : ev = [.prim .disarmEdge u.dpin a])
      (hc : t.code = .timeoutError)
  | ioError (p : Prim) (x : PinId) (a : Answer) (he : ev = [.prim p x a]) (ho : (Obs.prim p x a).isRise = false)
      (hc : t.code = .ioError)

theorem readEnds_countPulse {u v : State} {ev : List Obs} (hp : LastPulseStep u ev) (hlog : v.log = ev ++ u.log)
    (hpulses : v.pulsecnt = u.pulsecnt) (hend : v.endpulses = u.endpulses) (hidle : (countPulse v).pos = .idle) :
    ∃ c w ev, countPulse v = complete c w ∧ w.log = ev ++ u.log ∧ ReadEnds u (countPulse v) ev := by
  unfold countPulse at hidle ⊢
  split at hidle
  · next hn =>
    rw [if_pos hn]
    exact ⟨_, _, ev, rfl, hlog, .ok hp (by rw [← hpulses, hn, hend]) rfl rfl⟩
  · cases hidle

/-- Everything that can end a READ. -/
theorem Works.readEnds {u t : State} (hw : Works u t) (hp : u.pos.phase.isRead = true) (ht : t.pos = .idle) :
    ∃ c v ev, t = complete c v ∧ v.log = ev ++ u.log ∧ ReadEnds u t ev := by
  have hfail {p : Prim} {k : Cause} (ha : u.answerTo p = some (.fail k)) :
      (failIo p k (primitive p u).2).log = [.prim p (u.handle p.pin) (.fail k)] ++ u.log := by
    rw [failIo_log, primitive_log ha]; rfl
  cases hw with
  | wait p hq hr ha => rw [primitive_pos] at ht; simp [ht, Pos.phase, Phase.isRead] at hp
  | fail p k hq hq' hr ha => exact ⟨_, _, _, rfl, hfail ha, .ioError _ _ _ rfl (isRise_fail _ _ _) rfl⟩
  | w5Disarm k hq hd hr ha => exact ⟨_, _, _, rfl, hfail ha, .ioError _ _ _ rfl (isRise_fail _ _ _) rfl⟩
  | w5End c v hq hd hr ha =>
    refine ⟨_, _, [.prim .disarmEdge u.dpin (.ok v)], rfl, primitive_log ha, ?_⟩
    obtain ⟨hd, rfl⟩ | ⟨hd, rfl⟩ := hd
    · exact .timeout _ hq hd rfl rfl
    · exact .ioError _ _ _ rfl rfl rfl
  | w5EndFail c k hq hd hr ha =>
    refine ⟨_, _, _, rfl, hfail ha, ?_⟩
    obtain ⟨hd, rfl⟩ | ⟨hd, rfl⟩ := hd
    · exact .timeout _ hq hd rfl rfl
    · exact .ioError _ _ _ rfl rfl rfl
  | countFall v hq h0 hr ha =>
    exact readEnds_countPulse (.inr ⟨hq, v, rfl⟩) (primitive_log ha) (by simp) (by simp) ht
  | count hq =>
    exact readEnds_countPulse (.inl ⟨hq, rfl⟩) (delay_log_append _ u) (by simp) (by simp) ht
  | i1 v hq | rs3 v hq | s0 v hq => simp [hq, Pos.phase, Phase.isRead] at hp
  | initFail p k hq => simp [hq, Phase.isRead] at hp
  | rise p q v hp' hq => obtain ⟨rfl, rfl⟩ | ⟨rfl, rfl⟩ | ⟨rfl, rfl⟩ | ⟨rfl, rfl⟩ := hq <;> cases ht
  | hold p q hp' hq => obtain ⟨rfl, rfl⟩ | ⟨rfl, rfl⟩ := hq <;> cases ht
  | fall p q v hp' hq => obtain ⟨rfl, rfl⟩ | ⟨rfl, rfl⟩ | ⟨rfl, rfl⟩ := hq <;> cases ht
  | b4 v q hp' hq => rw [goto_pos, hq] at ht; split at ht <;> cases ht
  | _ => cases ht

theorem step_works {s t : State} (ht : step s = .next t) (hr : s.inReset = false) (hp : s.phase.isRead = true) :
    Works (tick s) t := by
  obtain ⟨hr', -⟩ | ⟨-, hidle, -⟩ | ⟨-, -, hw⟩ := step_cases ht
  · simp [hr] at hr'
  · exact absurd hidle (isRead_ne hp).1
  · exact hw

theorem commandTrace_append {ev : List Obs} (h : ∀ o ∈ ev, o.isEvent = true) (l : List Obs) :
    commandTrace (ev ++ l) = ev ++ commandTrace l := List.takeWhile_append_of_pos h

theorem delayTrace_isEvent (n : Nat) : ∀ o ∈ delayTrace n, o.isEvent = true := by
  unfold delayTrace; split <;> simp [Obs.isEvent]

theorem LastPulseStep.counts {u : State} {ev : List Obs} (h : LastPulseStep u ev) :
    risesDue u = 25 + u.pulsecnt ∧ ev.countP Obs.isRise = 0 ∧ ev.countP Obs.isFall + fallsDue u = 26 + u.pulsecnt := by
  obtain ⟨hp, rfl⟩ | ⟨hp, v, rfl⟩ := h
  · simp [risesDue, fallsDue, hp]
  · simp +arith [risesDue, fallsDue, hp]

/-- The events of the micro-step that ends a READ. -/
theorem ReadEnds.events {u t : State} {ev : List Obs} (h : ReadEnds u t ev) :
    ev.length ≤ 1 ∧ (∀ o ∈ ev, o.isEvent = true) ∧ ev.countP Obs.isRise = 0 := by
  cases h with
  | ok hp =>
    obtain ⟨-, hr, -⟩ := hp.counts
    obtain ⟨-, rfl⟩ | ⟨-, v, rfl⟩ := hp
    · exact ⟨by unfold delayTrace; split <;> simp, delayTrace_isEvent _, hr⟩
    · exact ⟨by simp, by simp [Obs.isEvent], hr⟩
  | timeout a hp hd he => subst he; exact ⟨by simp, by simp [Obs.isEvent], rfl⟩
  | ioError p x a he ho => subst he; exact ⟨by simp, by simp [Obs.isEvent], by simp [ho]⟩

/-- No READ issues more than 24 + `ENDPULSES` rising writes (42_read.md R195). -/
theorem Inv.risesDue_le {s : State} (h : Inv s) (hp : s.pos.phase.isRead = true) :
    risesDue s ≤ 24 + s.endpulses.toNat := by
  cases hph : s.pos.phase with
  | wait => rw [risesDue_wait hph]; exact Nat.zero_le _
  | shift =>
    have hlt := h.bitcnt_lt hph
    unfold risesDue
    cases hq : s.pos <;> simp [hq, Pos.phase] at hph <;> simp only <;> omega
  | endpulse =>
    have hlt := h.pulsecnt_lt hph
    unfold risesDue
    cases hq : s.pos <;> simp [hq, Pos.phase] at hph <;> simp only <;> omega
  | idle | init | reset | shutdown => simp [hph, Phase.isRead] at hp

/-- Settles O42: what the trace holds at the position where the READ ends, and the event of its last micro-step. -/
theorem readPulseCount : Obligations.ReadPulseCount := by
  intro s t hinv h hr hp ht hidle
  obtain ⟨c, v, ev, e, hlog, hends⟩ := (step_works ht hr hp).readEnds hp hidle
  obtain ⟨hlen, hevents, hrise⟩ := hends.events
  have hrises : (commandTrace (ev ++ s.log)).countP Obs.isRise = risesDue s := by
    rw [commandTrace_append hevents, List.countP_append, hrise, h.rises, Nat.zero_add]
  refine ⟨⟨t.code, t.cleanupFail, t.result⟩, ev, by rw [e, complete_log, hlog]; rfl, rfl, hlen, ?_⟩
  rw [hrises, commandTrace_append hevents, List.countP_append, List.countP_append]
  cases hends with
  | ok hlast hn hv hc =>
    obtain ⟨hdue, -, hfall⟩ := hlast.counts
    have hfalls := h.falls hp fun e => by obtain ⟨e', -⟩ | ⟨e', -⟩ := hlast <;> simp [e] at e'
    replace hn : s.pulsecnt + 1 = s.endpulses.toNat := hn
    replace hdue : risesDue s = 25 + s.pulsecnt := hdue
    replace hfall : ev.countP Obs.isFall + fallsDue s = 26 + s.pulsecnt := hfall
    exact ⟨fun _ => ⟨by omega, by omega⟩, by simp [hc], .inl hc⟩
  | timeout a hq hd he hc =>
    have hph : s.pos.phase = .wait := by rw [show s.pos = .w5 from hq]; rfl
    obtain ⟨-, -, -, hbound⟩ := hinv.polls
    refine ⟨by simp [hc], fun _ => ⟨risesDue_wait hph, ?_⟩, .inr (.inl hc)⟩
    rw [h.polls hph, hbound hd, he]
    simp
  | ioError p x a he ho hc => exact ⟨by simp [hc], by simp [hc], .inr (.inr ⟨hc, hinv.risesDue_le hp⟩)⟩

/-- Settles O43: RESULT and RESULT_VALID are written together, exactly where the READ ends with Ok. -/
theorem readIsAllOrNothing : Obligations.ReadIsAllOrNothing := by
  intro s t hinv h hr hp ht hidle
  have hw := step_works ht hr hp
  obtain ⟨hresult, hvalid⟩ | hdone := hw.result
  · have hnone : t.resultValid = false := hvalid.trans (hinv.reading hp).valid
    have hcode : t.code ≠ .ok := by
      obtain ⟨c, v, ev, -, -, hends⟩ := hw.readEnds hp hidle
      cases hends with
      | ok hlast hn hv => simp [hv] at hnone
      | timeout a hq hd he hc => simp [hc]
      | ioError p x a he ho hc => simp [hc]
    exact ⟨by simp [hnone, hcode], fun hc => absurd hc hcode, fun _ => hresult⟩
  · have hph : s.pos.phase = .endpulse := hdone.phase
    obtain ⟨l, ls, hl, hlen, hacc⟩ := h.acc (.inr hph)
    refine ⟨by simp [hdone.valid, hdone.code], fun _ => ⟨l, ls, hl, ?_, ?_⟩, fun hc => absurd hdone.code hc⟩
    · obtain ⟨-, -, -, h24⟩ := hinv.bits
      exact hlen.trans (h24 hph)
    · rw [hdone.result, ← hacc]; rfl

/-! ### READ, micro-step by micro-step (O19 to O23, O25, O26) -/

/-! #### The primitives of READ -/

/-- A failed arming or disarm leaves the arming unknown (93 U4). -/
theorem primitive_fail_edgeArmed {p : Prim} {s : State} {k : Cause} (h : s.answerTo p = some (.fail k))
    (hp : p = .armFallingEdge ∨ p = .disarmEdge) : (primitive p s).2.edgeArmed = .unknown := by
  obtain ⟨ab, -, hq⟩ | ⟨r, d, -, ha, -⟩ := primitive_pins h
  · rw [edgeArmed_eq, hq]
    obtain rfl | rfl := hp <;> rfl
  · obtain rfl | rfl := hp <;> cases ha

/-- The two reading primitives leave the lines alone (40_primitives.md R124, R127). -/
theorem primitive_reads_sameLines {p : Prim} (hp : p = .readLevel ∨ p = .edgeWasDetected) (s : State) :
    SameLines s (primitive p s).2 := by
  obtain rfl | rfl := hp <;>
    exact ⟨primitive_other_dirClock (by simp), primitive_other_dirData (by simp), primitive_other_clkLvl rfl,
      primitive_other_edgeArmed (by simp) (by simp)⟩

/-! #### The acceptance (R181) -/

theorem execRead_idle {s : State} (hp : s.pos = .idle) (hi : s.initialised = true) (hr : s.ready = true)
    (hne : s.cpin ≠ s.dpin) : exec .read s = .next (begin .w0 (readClear (accepted s))) := by
  simp only [exec, execRead, hp, readAccept, whenInitialised_ok hi hne]
  exact launch_ok (by simpa using hr) .w0

/-- Settles O19: the acceptance is one clock cycle, the common actions and READ's own. -/
theorem readAcceptance : Obligations.ReadAcceptance := by
  intro s hp hi hr hne
  exact ⟨_, execRead_idle hp hi hr hne, rfl, rfl, begin_accepted_outcome .w0 s,
    congrArg (false, ·) ((accepted_initialised s).trans hi), congrArg (0, ·) (accepted_result s), rfl,
    accepted_config s, accepted_sameLines s, accepted_log s, accepted_outside s⟩

/-! #### The wait phase (R182 to R185) -/

theorem execRead_w0 {s : State} (hp : s.pos = .w0) : exec .read s = readW0 s := by simp only [exec, execRead, hp]
theorem execRead_w1 {s : State} (hp : s.pos = .w1) : exec .read s = readW1 s := by simp only [exec, execRead, hp]
theorem execRead_w2 {s : State} (hp : s.pos = .w2) : exec .read s = readW2 s := by simp only [exec, execRead, hp]
theorem execRead_w3 {s : State} (hp : s.pos = .w3) : exec .read s = readW3 s := by simp only [exec, execRead, hp]
theorem execRead_w4 {s : State} (hp : s.pos = .w4) : exec .read s = .next (readW4 s) := by
  simp only [exec, execRead, hp]
theorem execRead_w5 {s : State} (hp : s.pos = .w5) : exec .read s = readW5 s := by simp only [exec, execRead, hp]
theorem execRead_b4 {s : State} (hp : s.pos = .b4) : exec .read s = readB4 s := by simp only [exec, execRead, hp]

/-- What leaves the wait phase for the disarm step with the decision `d` and `IOCAUSE` = `io`, over the trace `tr`, leaves
alone (R182 to R185). -/
structure LeavesWait (s : State) (d : Pend) (io : IoCause) (tr : List Obs) (t : State) : Prop where
  pos : t.pos = .w5
  counters : t.counters = (s.bitcnt, s.pulsecnt, s.pollcnt, d)
  outcome : t.outcome = (s.busy, s.done, s.code, s.cleanupFail, io)
  datapath : t.datapath = s.datapath
  config : t.config = s.config
  validity : t.validity = s.validity
  log : t.log = tr ++ s.log
  outside : t.outside = s.outside

theorem leavesWait_primitive {s : State} {p : Prim} {a : Answer} (ha : s.answerTo p = some a) (d : Pend) :
    LeavesWait s d s.iocause [.prim p (s.handle p.pin) a] (leaveWait d (primitive p s).2) := by
  obtain ⟨hdatapath, -, hconfig, hvalidity, houtcome, houtside⟩ := primitive_sameRegisters p s
  exact ⟨rfl, by simp [State.counters], houtcome, hdatapath, hconfig, hvalidity, primitive_log ha, houtside⟩

/-- A primitive that fails after the arming (R182 to R184). -/
theorem leavesWait_failed {s : State} {p : Prim} {k : Cause} (hpend : s.pend = .none)
    (ha : s.answerTo p = some (.fail k)) :
    LeavesWait s .ioerr ⟨p.kind, p.pin, k⟩ [.prim p (s.handle p.pin) (.fail k)]
      (waitFailed p k (primitive p s).2) := by
  have h := leavesWait_primitive ha .ioerr
  rw [waitFailed, failIo_first (.inl ((primitive_pend p s).trans hpend))]
  exact { h with outcome := by simp [State.outcome] }

/-- Settles O20: each of the two primitives goes on, or fails with and without a disarm owed. -/
theorem readArmsThenLowersTheClock : Obligations.ReadArmsThenLowersTheClock := by
  intro s hr hpend
  refine ⟨fun v hp ha => ?_, fun k hp ha => ?_, fun v hp ha => ?_, fun k hp ha => ?_⟩
  · have hx : exec .read s = .next (goto .w1 (primitive .armFallingEdge s).2) :=
      (execRead_w0 hp).trans (issue_answered hr ha _)
    exact ⟨_, hx, rfl, primitive_sameRegisters _ s, primitive_arm_edgeArmed ha, primitive_other_clkLvl rfl,
      primitive_log ha⟩
  · have hx : exec .read s = .next (failWith .ioError .armFallingEdge k (primitive .armFallingEdge s).2) :=
      (execRead_w0 hp).trans (issue_answered hr ha _)
    rw [failWith, failIo_first (.inl ((primitive_pend _ s).trans hpend))] at hx
    obtain ⟨hdatapath, hcounters, hconfig, hvalidity, -, houtside⟩ := primitive_sameRegisters .armFallingEdge s
    exact ⟨_, hx, completedWith_complete _ (primitive_cleanupFail _ s) rfl (primitive_log ha), hdatapath, hcounters,
      hconfig, hvalidity, primitive_other_clkLvl rfl, primitive_fail_edgeArmed ha (.inl rfl), houtside⟩
  · have hx : exec .read s = .next (goto .w2 (primitive (.writeLevel .low) s).2) :=
      (execRead_w1 hp).trans (issue_answered hr ha _)
    have hw := clockWritten_goto ha .w2
    exact ⟨_, hx, rfl, hw.registers, hw.level, hw.arming, hw.log⟩
  · have hx : exec .read s = .next (waitFailed (.writeLevel .low) k (primitive (.writeLevel .low) s).2) :=
      (execRead_w1 hp).trans (issue_answered hr ha _)
    have hl := leavesWait_failed hpend ha
    exact ⟨_, hx, hl.pos, hl.counters, hl.outcome, hl.datapath, hl.config, hl.validity,
      (failIo_clkLvl _ k _).trans (primitive_fail_clkLvl ha),
      (failIo_edgeArmed _ k _).trans (primitive_other_edgeArmed (by simp) (by simp)), hl.log, hl.outside⟩

theorem waitFailed_sameLines {s : State} {p : Prim} (hp : p = .readLevel ∨ p = .edgeWasDetected) (k : Cause) :
    SameLines s (waitFailed p k (primitive p s).2) :=
  (primitive_reads_sameLines hp s).congr (by simp [lines_eq_iff, waitFailed])

/-- Settles O21: the three answers to the one sample. -/
theorem readSamplesOnceBeforePolling : Obligations.ReadSamplesOnceBeforePolling := by
  intro s hr hpend hp
  have hlines := primitive_reads_sameLines (.inl rfl) s
  refine ⟨fun ha => ?_, fun ha => ?_, fun k ha => ?_⟩
  · have hx : exec .read s = .next (leaveWait .ready (primitive .readLevel s).2) :=
      (execRead_w2 hp).trans (issue_answered hr ha _)
    have hl := leavesWait_primitive ha .ready
    exact ⟨_, hx, hl.pos, hl.counters, hl.datapath, hl.config, hl.validity, hl.outcome, hlines, hl.log, hl.outside⟩
  · have hx : exec .read s = .next (goto .w3 (primitive .readLevel s).2) :=
      (execRead_w2 hp).trans (issue_answered hr ha _)
    exact ⟨_, hx, rfl, primitive_sameRegisters _ s, hlines, primitive_log ha⟩
  · have hx : exec .read s = .next (waitFailed .readLevel k (primitive .readLevel s).2) :=
      (execRead_w2 hp).trans (issue_answered hr ha _)
    have hl := leavesWait_failed hpend ha
    exact ⟨_, hx, hl.pos, hl.counters, hl.outcome, hl.datapath, hl.config, hl.validity,
      waitFailed_sameLines (.inl rfl) k, hl.log, hl.outside⟩

theorem readW4_last {s : State} (h : s.pollcnt = s.params.pollAttempts) :
    readW4 s = leaveWait .timeout (delay s.params.tPoll s) := if_pos h
theorem readW4_more {s : State} (h : s.pollcnt ≠ s.params.pollAttempts) :
    readW4 s = goto .w3 (delay s.params.tPoll s) := if_neg h

/-- Settles O22: the three answers to a polling attempt, and the delay with its two ways on. -/
theorem readPollsThenDelays : Obligations.ReadPollsThenDelays := by
  intro s hr hpend
  have hlines := primitive_reads_sameLines (.inr rfl) s
  refine ⟨fun hp ha => ?_, fun hp ha => ?_, fun k hp ha => ?_, fun hp => ?_⟩
  · have hx : exec .read s = .next (leaveWait .ready (primitive .edgeWasDetected s).2) :=
      (execRead_w3 hp).trans (issue_answered hr ha _)
    have hl := leavesWait_primitive ha .ready
    exact ⟨_, hx, hl.pos, hl.counters, hl.datapath, hl.config, hl.validity, hl.outcome, hlines, hl.log, hl.outside⟩
  · have hx : exec .read s = .next (goto .w4 { (primitive .edgeWasDetected s).2 with
        pollcnt := (primitive .edgeWasDetected s).2.pollcnt + 1 }) :=
      (execRead_w3 hp).trans (issue_answered hr ha _)
    obtain ⟨hdatapath, -, hconfig, hvalidity, houtcome, houtside⟩ := primitive_sameRegisters .edgeWasDetected s
    exact ⟨_, hx, rfl, by simp [State.counters, hpend], hdatapath, hconfig, hvalidity, houtcome, hlines,
      primitive_log ha, houtside⟩
  · have hx : exec .read s = .next (waitFailed .edgeWasDetected k (primitive .edgeWasDetected s).2) :=
      (execRead_w3 hp).trans (issue_answered hr ha _)
    have hl := leavesWait_failed hpend ha
    exact ⟨_, hx, hl.pos, hl.counters, hl.outcome, hl.datapath, hl.config, hl.validity,
      waitFailed_sameLines (.inr rfl) k, hl.log, hl.outside⟩
  · have hx := execRead_w4 hp
    obtain ⟨hdatapath, hcounters, hconfig, hvalidity, houtcome, houtside⟩ := delay_sameRegisters s.params.tPoll s
    have hdelay := delay_sameLines s.params.tPoll s
    have hlog := delay_log_append s.params.tPoll s
    by_cases hn : s.pollcnt = s.params.pollAttempts
    · rw [readW4_last hn] at hx
      exact ⟨_, hx, fun _ => ⟨rfl, by simp [State.counters]⟩, fun h => absurd hn h, hdatapath, hconfig, hvalidity,
        houtcome, hdelay, hlog, houtside⟩
    · rw [readW4_more hn] at hx
      exact ⟨_, hx, fun h => absurd h hn, fun _ => ⟨rfl, hcounters⟩, hdatapath, hconfig, hvalidity, houtcome, hdelay,
        hlog, houtside⟩

/-! #### The disarm (R187) -/

/-- What the disarm step leaves alone, whatever its answer and wherever it goes. -/
structure Disarmed (s : State) (t : State) : Prop where
  counters : t.counters = (s.bitcnt, s.pulsecnt, s.pollcnt, .none)
  datapath : t.datapath = s.datapath
  config : t.config = s.config
  validity : t.validity = s.validity
  clock : t.clkLvl = s.clkLvl
  outside : t.outside = s.outside

theorem disarmed_pendNone (s : State) : Disarmed s { (primitive .disarmEdge s).2 with pend := .none } := by
  obtain ⟨hdatapath, -, hconfig, hvalidity, -, houtside⟩ := primitive_sameRegisters .disarmEdge s
  exact ⟨by simp [State.counters], hdatapath, hconfig, hvalidity, primitive_other_clkLvl rfl, houtside⟩

/-- The two failures that await the disarm, with the codes they end in (R187). -/
inductive FailedWith : Pend → Code → Prop where
  | timeout : FailedWith .timeout .timeoutError
  | ioError : FailedWith .ioerr .ioError

theorem readW5_failed {s : State} {c : Code} (h : FailedWith s.pend c) :
    readW5 s = issue .disarmEdge s (disarmAndComplete c) := by
  generalize hd : s.pend = d at h
  cases h <;> simp only [readW5, hd]

theorem readW5_ready {s : State} (h : s.pend = .ready) : readW5 s = issue .disarmEdge s disarmAndShift := by
  simp only [readW5, h]

theorem failedWith_iff {p : Pend} {c : Code} :
    FailedWith p c ↔ p = .timeout ∧ c = .timeoutError ∨ p = .ioerr ∧ c = .ioError := by
  constructor
  · rintro ⟨⟩ <;> simp
  · rintro (⟨rfl, rfl⟩ | ⟨rfl, rfl⟩) <;> constructor

/-- Settles O23: the two answers to the disarm on the success path and on a failed one. -/
theorem readDisarmsOnEveryExit : Obligations.ReadDisarmsOnEveryExit := by
  intro s hr hp
  have hd := disarmed_pendNone s
  refine ⟨fun v ha => ⟨fun hpend => ?_, fun p c hpc hpend => ?_⟩, fun k ha => ⟨fun hpend => ?_, fun p c hpc hpend => ?_⟩⟩
  · have hx := (execRead_w5 hp).trans ((readW5_ready hpend).trans (issue_answered hr ha _))
    obtain ⟨-, -, -, -, houtcome, -⟩ := primitive_sameRegisters .disarmEdge s
    exact ⟨_, hx, rfl, rfl, hd.counters, hd.datapath, hd.config, hd.validity, houtcome, primitive_disarm_edgeArmed ha,
      hd.clock, primitive_log ha, hd.outside⟩
  · have hx := (execRead_w5 hp).trans
      ((readW5_failed (failedWith_iff.mpr (hpend ▸ hpc))).trans (issue_answered hr ha _))
    exact ⟨_, hx, completedWith_complete c (primitive_cleanupFail _ s) (primitive_iocause _ s) (primitive_log ha),
      hd.counters, hd.datapath, hd.config, hd.validity, primitive_disarm_edgeArmed ha, hd.clock, hd.outside⟩
  · have hx := (execRead_w5 hp).trans ((readW5_ready hpend).trans (issue_answered hr ha _))
    rw [disarmAndShift, failIo_first (.inr ((primitive_pend _ s).trans hpend))] at hx
    exact ⟨_, hx, completedWith_complete _ (primitive_cleanupFail _ s) rfl (primitive_log ha), hd.counters, hd.datapath,
      hd.config, hd.validity, primitive_fail_edgeArmed ha (.inr rfl), hd.clock, hd.outside⟩
  · have hx := (execRead_w5 hp).trans
      ((readW5_failed (failedWith_iff.mpr (hpend ▸ hpc))).trans (issue_answered hr ha _))
    have hlater : (primitive .disarmEdge s).2.pend = .timeout ∨ (primitive .disarmEdge s).2.pend = .ioerr := by
      rw [primitive_pend, hpend]
      exact hpc.imp And.left And.left
    rw [disarmAndComplete, failIo_later hlater] at hx
    exact ⟨_, hx, completedWith_complete c rfl (primitive_iocause _ s) (primitive_log ha), hd.counters, hd.datapath,
      hd.config, hd.validity, primitive_fail_edgeArmed ha (.inr rfl), hd.clock, hd.outside⟩

/-! #### The frame (R189, R191, R192) -/

theorem readB4_answered {s : State} {v : Bool} (hr : s.ready = true) (ha : s.answerTo .readLevel = some (.ok v)) :
    readB4 s = .next (goto (if s.bitcnt + 1 = Config.dataBits then .e0 else .b0)
      { (primitive .readLevel s).2 with acc := shiftIn s.acc (levelOf v), bitcnt := s.bitcnt + 1 }) := by
  simp only [readB4, issue_answered hr ha, primitive_acc, primitive_bitcnt]

/-- Settles O25: the sample step writes ACC and BITCNT over its primitive. -/
theorem readSamplesABit : Obligations.ReadSamplesABit := by
  intro s v hr hp ha
  obtain ⟨-, -, hconfig, hvalidity, houtcome, houtside⟩ := primitive_sameRegisters .readLevel s
  exact ⟨_, (execRead_b4 hp).trans (readB4_answered hr ha), congrArg (_, ·) (primitive_result _ s),
    by simp [State.counters], rfl, hconfig, hvalidity, houtcome, primitive_reads_sameLines (.inl rfl) s,
    primitive_log ha, houtside⟩

/-- The last step of an end pulse counts it, over the delay or the falling write (R191). -/
theorem execRead_e3 {s : State} (hp : s.pos = .e3) :
    exec .read s = .next (countPulse (delay s.params.tLow s)) := by
  simp only [exec, execRead, hp]

theorem execRead_e2_count {s : State} {v : Bool} (hp : s.pos = .e2) (h0 : s.params.tLow = 0) (hr : s.ready = true)
    (ha : s.answerTo (.writeLevel .low) = some (.ok v)) :
    exec .read s = .next (countPulse (primitive (.writeLevel .low) s).2) := by
  simp only [exec, execRead, hp, writeClock_answered hr ha, afterEndFall, primitive_params, if_pos h0]

theorem countPulse_last {s : State} (h : s.pulsecnt + 1 = s.endpulses.toNat) :
    countPulse s = readDone { s with pulsecnt := s.pulsecnt + 1 } := if_pos h
theorem countPulse_more {s : State} (h : s.pulsecnt + 1 ≠ s.endpulses.toNat) :
    countPulse s = goto .e0 { s with pulsecnt := s.pulsecnt + 1 } := if_neg h

@[simp] theorem countPulse_counters (s : State) :
    (countPulse s).counters = (s.bitcnt, s.pulsecnt + 1, s.pollcnt, s.pend) := by
  obtain h | h := countPulse_cases s <;> rw [h] <;> rfl
@[simp] theorem countPulse_config (s : State) : (countPulse s).config = s.config := by simp [State.config]
@[simp] theorem countPulse_outside (s : State) : (countPulse s).outside = s.outside := by simp [State.outside]

/-- What stands before the counting of an end pulse: the registers of `s`, over the trace `tr` of the step's delay or
falling write (R191). -/
structure PulseEnds (s : State) (tr : List Obs) (v : State) : Prop where
  exec : exec .read s = .next (countPulse v)
  registers : SameRegisters s v
  log : v.log = tr ++ s.log
  arming : v.edgeArmed = s.edgeArmed
  delayed : s.pos = .e3 → v.clkLvl = s.clkLvl
  written : s.pos = .e2 → s.drives → v.clkLvl = .low

theorem pulseEnds_delay {s : State} (hp : s.pos = .e3) :
    PulseEnds s (delayTrace s.params.tLow) (delay s.params.tLow s) where
  exec := execRead_e3 hp
  registers := delay_sameRegisters _ s
  log := delay_log_append _ s
  arming := delay_edgeArmed _ s
  delayed _ := delay_clkLvl _ s
  written := by simp [hp]

theorem pulseEnds_write {s : State} {v : Bool} (hp : s.pos = .e2) (h0 : s.params.tLow = 0) (hr : s.ready = true)
    (ha : s.answerTo (.writeLevel .low) = some (.ok v)) :
    PulseEnds s [.prim (.writeLevel .low) s.cpin (.ok v)] (primitive (.writeLevel .low) s).2 where
  exec := execRead_e2_count hp h0 hr ha
  registers := primitive_sameRegisters _ s
  log := primitive_log ha
  arming := primitive_other_edgeArmed (by simp) (by simp)
  delayed := by simp [hp]
  written _ hd := primitive_write_clkLvl ha ((drives_iff s).mp hd)

/-- Settles O26: the counting leaves what the step before it has left, or completes the READ. -/
theorem readCountsEndPulsesAndCompletes : Obligations.ReadCountsEndPulsesAndCompletes := by
  intro s tr hr hp
  obtain ⟨v, hv⟩ : ∃ v, PulseEnds s tr v := by
    obtain ⟨hp, rfl⟩ | ⟨hp, h0, v, ha, rfl⟩ := hp
    · exact ⟨_, pulseEnds_delay hp⟩
    · exact ⟨_, pulseEnds_write hp h0 hr ha⟩
  obtain ⟨hdatapath, hcounters, hconfig, hvalidity, houtcome, houtside⟩ := hv.registers
  have hout := houtcome
  simp only [State.datapath, State.counters, State.config, State.validity, State.outcome, State.outside,
    Prod.mk.injEq] at hdatapath hcounters hconfig hvalidity hout houtside
  refine ⟨_, hv.exec, by simp [hcounters], by simp [State.config, hconfig], ?_, by simp [State.outside, houtside],
    ?_, ?_, fun hn => ?_, fun hn => ?_⟩
  · simpa using hv.arming
  · simpa using hv.delayed
  · simpa using hv.written
  · rw [countPulse_last (by simpa [hcounters, hconfig] using hn)]
    refine ⟨completedWith_complete .ok ?_ ?_ hv.log, ?_, ?_⟩
    · simp [hout]
    · simp [hout]
    · simp [State.datapath, readDone, hdatapath, houtside]
    · simp [State.validity, readDone, hvalidity]
  · rw [countPulse_more (by simpa [hcounters, hconfig] using hn)]
    exact ⟨rfl, houtcome, by simp [State.datapath, hdatapath], by simp [State.validity, hvalidity], hv.log⟩

/-! ### Whole READs in the `abstract` binding (O33 to O35)

`Underway s` says that no register of `s` has changed but the response fields. A READ writes its own registers, so here the
`s` of `Underway` carries the values they have at the position. -/

@[simp] theorem delayTrace_reverse (n : Nat) : (delayTrace n).reverse = delayTrace n := by
  unfold delayTrace; split <;> rfl

theorem pollTrace_succ (s : State) (k : Nat) :
    pollTrace s (k + 1) = (okEvent s .edgeWasDetected false :: delayTrace s.params.tPoll) ++ pollTrace s k := by
  rw [pollTrace, List.replicate_succ, List.flatten_cons]; rfl

theorem pollTrace_snoc (s : State) (k : Nat) :
    pollTrace s (k + 1) = pollTrace s k ++ (okEvent s .edgeWasDetected false :: delayTrace s.params.tPoll) := by
  rw [pollTrace, List.replicate_succ', List.flatten_concat]; rfl

namespace Underway

variable {s u : State} {i : Instr} {p rise high fall : Pos} {a : AbstractPins} {l : LineLevel} {e : PinFlag}
  {rest : List (Option Answer)} {tr : List Obs} {b : Bool} {q : Prim}

/-! #### One micro-step -/

theorem counts (h : Underway s p a rest tr u) :
    u.bitcnt = s.bitcnt ∧ u.pulsecnt = s.pulsecnt ∧ u.pollcnt = s.pollcnt ∧ u.pend = s.pend := by
  simpa [State.counters] using h.counters

theorem selector (h : Underway s p a rest tr u) : u.endpulses = s.endpulses := congrArg Prod.fst h.config

/-- A micro-step whose primitive is answered Ok (20_memory.md R65). -/
theorem step_issue {k : Answer → State → State} (h : Underway s p a (some (.ok b) :: rest) tr u)
    (hi : (Machine.goto p s).running = some i) (hx : exec i (Machine.tick u) = issue q (Machine.tick u) k)
    (hq : q.settle s.params (.ok b) = .ok b) :
    ∃ w, step u = .next (k (.ok b) w) ∧ Underway s p (a.after q (.ok b)) rest (okEvent s q b :: tr) w := by
  have ht := h.tick
  have hsettle : q.settle (Machine.tick u).params (.ok b) = .ok b := by rw [ht.params, hq]
  have hanswer : (Machine.tick u).answerTo q = some (.ok b) := by rw [answerTo_reply ht.pins ht.replies, hsettle]
  refine ⟨_, (h.step_eq hi).trans (hx.trans (issue_answered ht.ready hanswer k)), ?_⟩
  rw [primitive_reply ht.pins ht.replies, hsettle]
  exact { ht with
    pins := rfl
    replies := rfl
    log := by rw [← okEvent_congr ht.config, List.cons_append, ← ht.log]; rfl }

/-- The wait phase decides on `d` (42_read.md R182 to R185). -/
theorem leaveWait (h : Underway s p a rest tr u) (d : Pend) :
    Underway { s with pend := d } .w5 a rest tr (leaveWait d u) :=
  { h with pos := rfl, counters := by simp [State.counters, h.counts] }

theorem step_w0 (h : Underway s .w0 a (some (.ok false) :: rest) tr u) :
    ∃ w, step u = .next w ∧ Underway s .w1 ⟨a.clkLvl, .set⟩ rest (okEvent s .armFallingEdge false :: tr) w := by
  obtain ⟨w, hw, hu⟩ := h.step_issue rfl (execRead_w0 h.tick.pos) rfl
  exact ⟨_, hw, hu.goto .w1⟩

theorem step_w1 (h : Underway s .w1 a (some (.ok false) :: rest) tr u) :
    ∃ w, step u = .next w ∧ Underway s .w2 ⟨.low, a.edgeArmed⟩ rest (okEvent s (.writeLevel .low) false :: tr) w := by
  obtain ⟨w, hw, hu⟩ := h.step_issue rfl (execRead_w1 h.tick.pos) rfl
  exact ⟨_, hw, hu.goto .w2⟩

theorem step_w2_low (h : Underway s .w2 a (some (.ok false) :: rest) tr u) :
    ∃ w, step u = .next w ∧ Underway { s with pend := .ready } .w5 a rest (okEvent s .readLevel false :: tr) w := by
  obtain ⟨w, hw, hu⟩ := h.step_issue rfl (execRead_w2 h.tick.pos) rfl
  exact ⟨_, hw, hu.leaveWait .ready⟩

theorem step_w2_high (h : Underway s .w2 a (some (.ok true) :: rest) tr u) :
    ∃ w, step u = .next w ∧ Underway s .w3 a rest (okEvent s .readLevel true :: tr) w := by
  obtain ⟨w, hw, hu⟩ := h.step_issue rfl (execRead_w2 h.tick.pos) rfl
  exact ⟨_, hw, hu.goto .w3⟩

theorem step_w3_edge (h : Underway s .w3 a (some (.ok true) :: rest) tr u) :
    ∃ w, step u = .next w ∧
      Underway { s with pend := .ready } .w5 a rest (okEvent s .edgeWasDetected true :: tr) w := by
  obtain ⟨w, hw, hu⟩ := h.step_issue rfl (execRead_w3 h.tick.pos) rfl
  exact ⟨_, hw, hu.leaveWait .ready⟩

theorem step_w3_none (h : Underway s .w3 a (some (.ok false) :: rest) tr u) :
    ∃ w, step u = .next w ∧
      Underway { s with pollcnt := s.pollcnt + 1 } .w4 a rest (okEvent s .edgeWasDetected false :: tr) w := by
  obtain ⟨w, hw, hu⟩ := h.step_issue rfl (execRead_w3 h.tick.pos) rfl
  exact ⟨_, hw, { hu with pos := rfl, counters := by simp [State.counters, hu.counts] }⟩

theorem step_w4 (h : Underway s .w4 a rest tr u) (ht : s.params.tPoll ≠ 0) :
    (s.pollcnt ≠ s.params.pollAttempts →
      ∃ w, step u = .next w ∧ Underway s .w3 a rest (.delay s.params.tPoll :: tr) w) ∧
    (s.pollcnt = s.params.pollAttempts →
      ∃ w, step u = .next w ∧ Underway { s with pend := .timeout } .w5 a rest (.delay s.params.tPoll :: tr) w) := by
  have hx := (h.step_eq rfl).trans (execRead_w4 h.tick.pos)
  have hd := h.tick.delay ht
  obtain ⟨-, -, hpoll, -⟩ := h.tick.counts
  refine ⟨fun hn => ⟨_, hx, ?_⟩, fun hn => ⟨_, hx, ?_⟩⟩
  · rw [readW4_more (by rwa [hpoll, h.tick.params]), h.tick.params]
    exact hd.goto .w3
  · rw [readW4_last (by rwa [hpoll, h.tick.params]), h.tick.params]
    exact hd.leaveWait .timeout

theorem pendNone (h : Underway s p a rest tr u) :
    Underway { s with pend := .none } p a rest tr { u with pend := .none } :=
  { h with counters := by simp [State.counters, h.counts] }

theorem step_w5_ready (h : Underway s .w5 a (some (.ok false) :: rest) tr u) (hd : s.pend = .ready) :
    ∃ w, step u = .next w ∧
      Underway { s with pend := .none } .b0 ⟨a.clkLvl, .clear⟩ rest (okEvent s .disarmEdge false :: tr) w := by
  obtain ⟨-, -, -, hpend⟩ := h.tick.counts
  have hx := (execRead_w5 h.tick.pos).trans (readW5_ready (hpend.trans hd))
  obtain ⟨w, hw, hu⟩ := h.step_issue rfl hx rfl
  exact ⟨_, hw, hu.pendNone.goto .b0⟩

theorem step_w5_timeout (h : Underway s .w5 a (some (.ok false) :: rest) tr u) (hd : s.pend = .timeout) :
    ∃ w, step u = .next (complete .timeoutError w) ∧
      Underway { s with pend := .none } .w5 ⟨a.clkLvl, .clear⟩ rest (okEvent s .disarmEdge false :: tr) w := by
  obtain ⟨-, -, -, hpend⟩ := h.tick.counts
  have hx := (execRead_w5 h.tick.pos).trans (readW5_failed (c := .timeoutError) (by rw [hpend, hd]; constructor))
  obtain ⟨w, hw, hu⟩ := h.step_issue rfl hx rfl
  exact ⟨_, hw, hu.pendNone⟩

/-! #### The polling loop -/

/-- `k` fruitless attempts, fewer than the bound leaves (R184, R185). -/
theorem run_polls {k : Nat} (h : Underway s .w3 a (List.replicate k (some (.ok false)) ++ rest) tr u)
    (ht : s.params.tPoll ≠ 0) (hk : s.pollcnt + k < s.params.pollAttempts) :
    ∃ w, Sys2Proof.core.run (2 * k) u = .next w ∧
      Underway { s with pollcnt := s.pollcnt + k } .w3 a rest ((pollTrace s k).reverse ++ tr) w := by
  induction k generalizing s u tr with
  | zero => exact ⟨u, rfl, h⟩
  | succ k ih =>
    obtain ⟨v, hv, h1⟩ := h.step_w3_none
    obtain ⟨w, hw, h2⟩ := (h1.step_w4 ht).1 (show s.pollcnt + 1 ≠ s.params.pollAttempts by omega)
    obtain ⟨x, hx, h3⟩ := ih h2 ht (show s.pollcnt + 1 + k < s.params.pollAttempts by omega)
    refine ⟨x, (core_run_next hv (2 * k + 1)).trans ((core_run_next hw (2 * k)).trans hx), ?_⟩
    have htr : (pollTrace s (k + 1)).reverse ++ tr =
        (pollTrace s k).reverse ++ .delay s.params.tPoll :: okEvent s .edgeWasDetected false :: tr := by
      simp [pollTrace_succ, delayTrace, ht]
    rw [htr, Nat.add_comm k, ← Nat.add_assoc]
    exact h3

/-! #### The frame -/

/-- The rising write of a pulse (42_read.md R188, R191). -/
theorem step_rise (hq : PulseAt rise high fall) (h : Underway s rise a (some (.ok false) :: rest) tr u) :
    ∃ w, step u = .next w ∧ Underway s (if s.params.tHigh = 0 then fall else high) ⟨.high, a.edgeArmed⟩ rest
      (okEvent s (.writeLevel .high) false :: tr) w := by
  have hx : exec .read (Machine.tick u) = writeClock .high (afterRise high fall) (Machine.tick u) := by
    cases hq <;> simp only [exec, execRead, h.tick.pos]
  obtain ⟨w, hw, hu⟩ := h.step_write (by cases hq <;> rfl) hx
  refine ⟨_, hw, ?_⟩
  rw [afterRise, hu.params]
  exact hu.goto _

/-- A delay step, or nothing where a delay of 0 is skipped (R188, R191). -/
theorem run_delay {n : Nat} {p' : Pos} (h : Underway s (if n = 0 then p' else p) a rest tr u)
    (hstep : ∀ v, Underway s p a rest tr v →
      step v = .next (Machine.goto p' (Machine.delay n (Machine.tick v)))) :
    ∃ k w, k ≤ 1 ∧ Sys2Proof.core.run k u = .next w ∧ Underway s p' a rest (delayTrace n ++ tr) w := by
  by_cases hn : n = 0
  · rw [if_pos hn] at h
    exact ⟨0, u, Nat.zero_le 1, rfl, by simpa [delayTrace, hn] using h⟩
  · rw [if_neg hn] at h
    exact ⟨1, _, Nat.le_refl 1, core_run_next (hstep u h) 0, by
      simpa [delayTrace, hn] using (h.tick.delay hn).goto p'⟩

/-- The rising write of a pulse and its High time (R188, R191). -/
theorem run_high (hq : PulseAt rise high fall) (h : Underway s rise a (some (.ok false) :: rest) tr u) :
    ∃ k w, k ≤ 2 ∧ Sys2Proof.core.run k u = .next w ∧ Underway s fall ⟨.high, a.edgeArmed⟩ rest
      (delayTrace s.params.tHigh ++ okEvent s (.writeLevel .high) false :: tr) w := by
  obtain ⟨v, hv, h1⟩ := h.step_rise hq
  obtain ⟨k, w, hk, hw, h2⟩ := h1.run_delay fun x hx => by
    rw [hx.step_eq (i := .read) (by cases hq <;> rfl)]
    cases hq <;> simp only [exec, execRead, hx.tick.pos, hx.tick.params]
  exact ⟨k + 1, w, by omega, (core_run_next hv k).trans hw, h2⟩

/-- The falling write of a data pulse and its Low time (R188). -/
theorem run_low (h : Underway s .b2 a (some (.ok false) :: rest) tr u) :
    ∃ k w, k ≤ 2 ∧ Sys2Proof.core.run k u = .next w ∧ Underway s .b4 ⟨.low, a.edgeArmed⟩ rest
      (delayTrace s.params.tLow ++ okEvent s (.writeLevel .low) false :: tr) w := by
  have hx : exec .read (Machine.tick u) =
      writeClock .low (fun v => Machine.goto (if v.params.tLow = 0 then .b4 else .b3) v) (Machine.tick u) := by
    simp only [exec, execRead, h.tick.pos]
  obtain ⟨v, hv, h1⟩ := h.step_write rfl hx
  rw [h1.params] at hv
  obtain ⟨k, w, hk, hw, h2⟩ := (h1.goto (if s.params.tLow = 0 then .b4 else .b3)).run_delay fun x hx => by
    rw [hx.step_eq (i := .read) rfl]
    simp only [exec, execRead, hx.tick.pos, hx.tick.params]
  exact ⟨k + 1, w, by omega, (core_run_next hv k).trans hw, h2⟩

/-- The sample of a data pulse (R189). -/
theorem step_sample (h : Underway s .b4 a (some (.ok b) :: rest) tr u) :
    ∃ w, step u = .next w ∧ Underway { s with acc := shiftIn s.acc (levelOf b), bitcnt := s.bitcnt + 1 }
      (if s.bitcnt + 1 = 24 then .e0 else .b0) a rest (okEvent s .readLevel b :: tr) w := by
  obtain ⟨w, hw, hu⟩ := h.step_issue rfl (execRead_b4 h.tick.pos) rfl
  obtain ⟨hacc, hresult⟩ := Prod.mk.inj hu.datapath
  exact ⟨_, hw, { hu with
    pos := by simp [hu.counts, Config.dataBits]
    counters := by simp [State.counters, hu.counts]
    datapath := by simp [State.datapath, hacc, hresult] }⟩

/-- A data pulse and its sample (R188, R189). -/
theorem run_bit (h : Underway s .b0 a (some (.ok false) :: some (.ok false) :: some (.ok b) :: rest) tr u) :
    ∃ k w, k ≤ 5 ∧ Sys2Proof.core.run k u = .next w ∧
      Underway { s with acc := shiftIn s.acc (levelOf b), bitcnt := s.bitcnt + 1 }
        (if s.bitcnt + 1 = 24 then .e0 else .b0) ⟨.low, a.edgeArmed⟩ rest ((bitTrace s b).reverse ++ tr) w := by
  obtain ⟨k, v, hk, hv, h1⟩ := h.run_high .data
  obtain ⟨m, w, hm, hw, h2⟩ := h1.run_low
  obtain ⟨x, hx, h3⟩ := h2.step_sample
  refine ⟨k + (m + 1), x, by omega, ?_, by simpa [bitTrace, pulseTrace] using h3⟩
  exact (core_run_add k _ hv).trans ((core_run_add m 1 hw).trans (core_run_next hx 0))

/-- The data bits of a frame, up to the end pulses (R188 to R190). -/
theorem run_bits {bits : List Bool} (h : Underway s (if s.bitcnt = 24 then .e0 else .b0) ⟨.low, e⟩
      (bits.flatMap (fun b => [some (.ok false), some (.ok false), some (.ok b)]) ++ rest) tr u)
    (hlen : s.bitcnt + bits.length = 24) :
    ∃ k w, k ≤ 5 * bits.length ∧ Sys2Proof.core.run k u = .next w ∧
      Underway { s with acc := (bits.map levelOf).foldl shiftIn s.acc, bitcnt := 24 } .e0 ⟨.low, e⟩ rest
        ((bits.flatMap (bitTrace s)).reverse ++ tr) w := by
  induction bits generalizing s u tr with
  | nil =>
    replace hlen : s.bitcnt = 24 := hlen
    rw [if_pos hlen] at h
    exact ⟨0, u, Nat.le_refl 0, rfl, { h with counters := h.counters.trans (by simp [State.counters, hlen]) }⟩
  | cons b bits ih =>
    rw [List.length_cons] at hlen ⊢
    rw [if_neg (by omega)] at h
    obtain ⟨k, v, hk, hv, h1⟩ := h.run_bit
    obtain ⟨m, w, hm, hw, h2⟩ := ih h1 (show s.bitcnt + 1 + bits.length = 24 by omega)
    refine ⟨k + m, w, by omega, (core_run_add k m hv).trans hw, ?_⟩
    rw [List.flatMap_cons, List.reverse_append, List.append_assoc]
    exact h2

/-! #### The end pulses -/

/-- One end pulse, up to its counting (R191). -/
theorem run_endPulse (h : Underway s .e0 a (some (.ok false) :: some (.ok false) :: rest) tr u) :
    ∃ k w p', k ≤ 4 ∧ Sys2Proof.core.run k u = .next (countPulse w) ∧
      Underway s p' ⟨.low, a.edgeArmed⟩ rest ((pulseTrace s).reverse ++ tr) w := by
  obtain ⟨k, v, hk, hv, h1⟩ := h.run_high .endPulse
  have hx : exec .read (Machine.tick v) = writeClock .low afterEndFall (Machine.tick v) := by
    simp only [exec, execRead, h1.tick.pos]
  obtain ⟨w, hw, h2⟩ := h1.step_write rfl hx
  have hrun : Sys2Proof.core.run (k + 1) u = .next (afterEndFall w) :=
    (core_run_add k 1 hv).trans (core_run_next hw 0)
  rw [afterEndFall, h2.params] at hrun
  by_cases h0 : s.params.tLow = 0
  · rw [if_pos h0] at hrun
    have hnone : delayTrace s.params.tLow = [] := if_pos h0
    exact ⟨k + 1, w, _, by omega, hrun, by simpa [pulseTrace, hnone, driven] using h2⟩
  · rw [if_neg h0] at hrun
    have h3 := h2.goto .e3
    have hstep := (h3.step_eq rfl).trans (execRead_e3 h3.tick.pos)
    refine ⟨k + 1 + 1, _, .e3, by omega, (core_run_add (k + 1) 1 hrun).trans (core_run_next hstep 0), ?_⟩
    have hsome : delayTrace s.params.tLow = [.delay s.params.tLow] := if_neg h0
    rw [h3.tick.params]
    simpa [pulseTrace, hsome, driven] using h3.tick.delay h0

/-- The counting of an end pulse that is not the last (R191). -/
theorem count_more (h : Underway s p a rest tr u) (hn : s.pulsecnt + 1 ≠ s.endpulses.toNat) :
    Underway { s with pulsecnt := s.pulsecnt + 1 } .e0 a rest tr (countPulse u) := by
  rw [countPulse_more (by simpa [h.counts, h.selector] using hn)]
  exact { h with pos := rfl, counters := by simp [State.counters, h.counts] }

/-- The counting of the last end pulse: what completes is the state with the sample in RESULT (R192). -/
theorem count_last (h : Underway s p a rest tr u) (hn : s.pulsecnt + 1 = s.endpulses.toNat) :
    ∃ w, countPulse u = complete .ok w ∧
      Underway { s with pulsecnt := s.endpulses.toNat, result := signExtend s.params s.acc, resultValid := true }
        p a rest tr w := by
  obtain ⟨hacc, -⟩ := Prod.mk.inj h.datapath
  obtain ⟨-, hinit⟩ := Prod.mk.inj h.validity
  rw [countPulse_last (by simpa [h.counts, h.selector] using hn)]
  exact ⟨_, rfl, { h with
    counters := by simp [State.counters, h.counts, hn]
    datapath := by simp [State.datapath, hacc, h.params]
    validity := by simp [State.validity, hinit] }⟩

/-- The end pulses of a frame, up to the completion of the READ (R191, R192). -/
theorem run_endPulses {n : Nat}
    (h : Underway s .e0 ⟨.low, e⟩ (List.replicate (2 * (n + 1)) (some (.ok false)) ++ rest) tr u)
    (hn : s.pulsecnt + n + 1 = s.endpulses.toNat) :
    ∃ k w p', k ≤ 4 * (n + 1) ∧ Sys2Proof.core.run k u = .next (complete .ok w) ∧
      Underway { s with pulsecnt := s.endpulses.toNat, result := signExtend s.params s.acc, resultValid := true }
        p' ⟨.low, e⟩ rest ((List.replicate (n + 1) (pulseTrace s)).flatten.reverse ++ tr) w := by
  induction n generalizing s u tr with
  | zero =>
    obtain ⟨k, v, p', hk, hv, h1⟩ := h.run_endPulse
    obtain ⟨w, hw, h2⟩ := h1.count_last hn
    rw [hw] at hv
    exact ⟨k, w, p', hk, hv, by simpa using h2⟩
  | succ n ih =>
    obtain ⟨k, v, p', hk, hv, h1⟩ := h.run_endPulse
    have h2 := h1.count_more (by omega)
    obtain ⟨m, w, q', hm, hw, h3⟩ := ih h2 (show s.pulsecnt + 1 + n + 1 = s.endpulses.toNat by omega)
    refine ⟨k + m, w, q', by omega, (core_run_add k m hv).trans hw, ?_⟩
    rw [List.replicate_succ, List.flatten_cons, List.reverse_append, List.append_assoc]
    exact h3

end Underway

/-! #### Whole commands -/

/-- A command that ends while nothing is recorded as failed. -/
theorem Underway.completedWith_code {s u : State} {p : Pos} {a : AbstractPins} {rest : List (Option Answer)}
    {tr : List Obs} (h : Underway s p a rest tr u) (c : Code) : CompletedWith s (complete c u) c false .clear tr := by
  have houtcome := h.outcome
  simp only [State.outcome, freshOutcome, Prod.mk.injEq] at houtcome
  obtain ⟨-, -, -, hcf, hio⟩ := houtcome
  exact completedWith_complete c hcf hio h.log

/-- The frame, from the first data bit to the completion (42_read.md R188 to R192). -/
theorem Underway.run_frame {s u : State} {e : PinFlag} {bits : List Bool} {n : Nat} {rest : List (Option Answer)}
    {tr : List Obs} (h : Underway s .b0 ⟨.low, e⟩ (frameReplies bits (n + 1) ++ rest) tr u) (hbit : s.bitcnt = 0)
    (hlen : bits.length = 24) (hpulse : s.pulsecnt + n + 1 = s.endpulses.toNat) :
    ∃ k w p, k ≤ 120 + 4 * (n + 1) ∧ Sys2Proof.core.run k u = .next (complete .ok w) ∧
      Underway { s with
          acc := (bits.map levelOf).foldl shiftIn s.acc
          bitcnt := 24
          pulsecnt := s.endpulses.toNat
          result := signExtend s.params ((bits.map levelOf).foldl shiftIn s.acc)
          resultValid := true } p ⟨.low, e⟩ rest ((frameTrace s bits (n + 1)).reverse ++ tr) w := by
  rw [frameReplies, List.append_assoc] at h
  have hstart : Pos.b0 = if s.bitcnt = 24 then .e0 else .b0 := by simp [hbit]
  rw [hstart] at h
  obtain ⟨k, v, hk, hv, h1⟩ := h.run_bits (by omega)
  obtain ⟨m, w, p, hm, hw, h2⟩ := h1.run_endPulses hpulse
  refine ⟨k + m, w, p, by omega, (core_run_add k m hv).trans hw, ?_⟩
  rw [frameTrace, List.reverse_append, List.append_assoc]
  exact h2

/-- The READ accepted in `s` has returned the sample of `bits`, over the trace `tr`, oldest event first (42_read.md R192,
R195, R196). -/
structure SampleReturned (s : State) (bits : List Bool) (rest : List (Option Answer)) (tr : List Obs) (t : State) :
    Prop where
  idle : t.pos = .idle
  outcome : t.outcome = (false, true, .ok, false, .clear)
  validity : t.validity = (true, true)
  result : t.result = signExtend s.params (shiftAll (bits.map levelOf))
  config : t.config = s.config
  clock : t.clkLvl = .low
  arming : t.edgeArmed = .clear
  cmds : t.cmds = s.cmds.tail
  replies : t.replies = rest
  log : t.log = .response ⟨.ok, false, t.result⟩ :: (tr.reverse ++ s.log)

/-- From the disarm step on, with READY decided on (R187 to R192). -/
theorem Underway.run_success {s u : State} {c : Nat} {bits : List Bool} {rest : List (Option Answer)} {tr : List Obs}
    (h : Underway { readClear s with pollcnt := c, pend := .ready } .w5 ⟨.low, .set⟩
      (some (.ok false) :: (frameReplies bits s.endpulses.toNat ++ rest)) tr.reverse u)
    (hi : s.initialised = true) (hgain : s.endpulses ≠ 0) (hlen : bits.length = 24) :
    ∃ k t, k ≤ 133 ∧ Sys2Proof.core.run k u = .next t ∧
      SampleReturned s bits rest (tr ++ okEvent s .disarmEdge false :: frameTrace s bits s.endpulses.toNat) t := by
  have hpos : s.endpulses.toNat ≠ 0 := fun h0 => hgain (BitVec.eq_of_toNat_eq h0)
  have hle := s.endpulses.isLt
  obtain ⟨n, hn⟩ := Nat.exists_eq_succ_of_ne_zero hpos
  rw [hn] at h ⊢
  obtain ⟨v, hv, h1⟩ := h.step_w5_ready rfl
  obtain ⟨k, w, p, hk, hw, h2⟩ := h1.run_frame rfl hlen (by simpa using hn.symm)
  obtain ⟨houtcome, -, -, hlog⟩ := h2.completedWith
  refine ⟨k + 1, _, by omega, (core_run_next hv k).trans hw, ?_⟩
  exact {
    idle := rfl
    outcome := houtcome
    validity := h2.validity.trans (congrArg (true, ·) hi)
    result := congrArg Prod.snd h2.datapath
    config := h2.config
    clock := by simp [h2.pins, PinLayer.clkLvl]
    arming := by simp [h2.pins, PinLayer.edgeArmed]
    cmds := h2.cmds
    replies := h2.replies
    log := by
      have htr : (tr ++ okEvent s .disarmEdge false :: frameTrace s bits (n + 1)).reverse =
          (frameTrace s bits (n + 1)).reverse ++ okEvent s .disarmEdge false :: tr.reverse := by simp
      rw [htr]
      exact hlog }

namespace AtRest

variable {s : State} {a : AbstractPins} {cs : List (Option Word)} {rest : List (Option Answer)} {bits : List Bool}

/-- The acceptance of READ from the port (R181). -/
theorem accept_read (h : AtRest s a (some (encode .read) :: cs) rest) :
    ∃ v, step s = .next v ∧ Underway (readClear s) .w0 a rest [] v := by
  refine ⟨begin .w0 (readClear (accepted (taken s))), ?_, ?_⟩
  · rw [step_offered h.idle (by simp [State.inReset, h.rstn]) h.cmds (decodeEncodeIdentity _)]
    exact execRead_idle (s := taken s) h.idle h.initialised h.ready h.handles
  · exact { underway_begin h.ready h.rstn h.pins h.replies .w0 with
      datapath := congrArg (0, ·) (accepted_result (taken s))
      counters := rfl
      validity := congrArg (false, ·) (accepted_initialised (taken s)) }

/-- READ up to its first sample: the acceptance, the arming and the write of Low (R181, R182). -/
theorem run_to_sample (h : AtRest s a (some (encode .read) :: cs) (some (.ok false) :: some (.ok false) :: rest)) :
    ∃ w, Sys2Proof.core.run 3 s = .next w ∧ Underway (readClear s) .w2 ⟨.low, .set⟩ rest
      [okEvent s (.writeLevel .low) false, okEvent s .armFallingEdge false] w := by
  obtain ⟨u, hu, h0⟩ := h.accept_read
  obtain ⟨v, hv, h1⟩ := h0.step_w0
  obtain ⟨w, hw, h2⟩ := h1.step_w1
  exact ⟨w, (core_run_next hu 2).trans ((core_run_next hv 1).trans (core_run_next hw 0)), h2⟩

end AtRest

/-- Settles O33: the one sample is Low, so the disarm and the frame follow at once. -/
theorem readFastPathRun : Obligations.ReadFastPathRun := by
  intro s a bits cs rest hinv hp hr hn hpins hi hne hcmds hlen hreplies
  have h : AtRest s a _ _ := ⟨hp, hr, hn, hpins, hi, hne, hcmds, hreplies⟩
  obtain ⟨u, hu, h1⟩ := h.run_to_sample
  obtain ⟨v, hv, h2⟩ := h1.step_w2_low
  obtain ⟨k, t, hk, ht, hdone⟩ := Underway.run_success (tr := [okEvent s .armFallingEdge false,
    okEvent s (.writeLevel .low) false, okEvent s .readLevel false]) h2 hi hinv.gain hlen
  refine ⟨3 + (k + 1), t, by omega, (core_run_add 3 _ hu).trans ((core_run_next hv k).trans ht), hdone.idle,
    hdone.outcome, hdone.validity, hdone.result, hdone.config, hdone.clock, hdone.arming,
    hdone.cmds.trans (congrArg List.tail hcmds), hdone.replies, hdone.log⟩

/-- Settles O34: the attempts that find no edge, the one that does, and the frame. -/
theorem readAfterPollingRun : Obligations.ReadAfterPollingRun := by
  intro s a bits j cs rest hinv hp hr hn hpins hi hne hcmds hlen hj hreplies
  simp only [List.append_assoc, List.cons_append, List.nil_append] at hreplies
  have h : AtRest s a _ _ := ⟨hp, hr, hn, hpins, hi, hne, hcmds, hreplies⟩
  obtain ⟨u, hu, h1⟩ := h.run_to_sample
  obtain ⟨v, hv, h2⟩ := h1.step_w2_high
  obtain ⟨w, hw, h3⟩ := h2.run_polls (tPoll_ne_zero_of_wf hinv.params_wf) (by simpa using hj)
  obtain ⟨x, hx, h4⟩ := h3.step_w3_edge
  have htr : ([okEvent s .armFallingEdge false, okEvent s (.writeLevel .low) false, okEvent s .readLevel true] ++
      pollTrace s j ++ [okEvent s .edgeWasDetected true]).reverse = okEvent s .edgeWasDetected true ::
      ((pollTrace s j).reverse ++ [okEvent s .readLevel true, okEvent s (.writeLevel .low) false,
        okEvent s .armFallingEdge false]) := by simp
  obtain ⟨k, t, hk, ht, hdone⟩ := Underway.run_success (htr ▸ h4) hi hinv.gain hlen
  refine ⟨3 + (2 * j + (k + 1) + 1), t, by omega, ?_, hdone.idle,
    hdone.outcome, hdone.validity, hdone.result, hdone.config, hdone.clock, hdone.arming, hdone.replies, ?_⟩
  · calc Sys2Proof.core.run (3 + (2 * j + (k + 1) + 1)) s
        = Sys2Proof.core.run (2 * j + (k + 1) + 1) u := core_run_add 3 _ hu
      _ = Sys2Proof.core.run (2 * j + (k + 1)) v := core_run_next hv _
      _ = Sys2Proof.core.run (k + 1) w := core_run_add (2 * j) _ hw
      _ = Sys2Proof.core.run k x := core_run_next hx k
      _ = .next t := ht
  · simpa using hdone.log

/-- Settles O35: the last attempt the bound allows finds no edge either, and the disarm ends the READ. -/
theorem readTimeoutRun : Obligations.ReadTimeoutRun := by
  intro s a cs rest hinv hp hr hn hpins hi hne hcmds hreplies
  obtain ⟨m, hm⟩ := Nat.exists_eq_succ_of_ne_zero (Nat.ne_of_gt (pollAttempts_pos_of_wf hinv.params_wf))
  have ht := tPoll_ne_zero_of_wf hinv.params_wf
  rw [hm, List.replicate_succ'] at hreplies
  simp only [List.append_assoc, List.cons_append, List.nil_append] at hreplies
  have h : AtRest s a _ _ := ⟨hp, hr, hn, hpins, hi, hne, hcmds, hreplies⟩
  obtain ⟨u, hu, h1⟩ := h.run_to_sample
  obtain ⟨v, hv, h2⟩ := h1.step_w2_high
  obtain ⟨w, hw, h3⟩ := h2.run_polls ht (show 0 + m < s.params.pollAttempts by omega)
  obtain ⟨x, hx, h4⟩ := h3.step_w3_none
  obtain ⟨y, hy, h5⟩ := (h4.step_w4 ht).2 (show 0 + m + 1 = s.params.pollAttempts by omega)
  obtain ⟨z, hz, h6⟩ := h5.step_w5_timeout rfl
  obtain ⟨houtcome, -, -, hlog⟩ := h6.completedWith_code .timeoutError
  refine ⟨_, ?_, rfl, houtcome, h6.validity.trans (congrArg (false, ·) hi), h6.datapath, h6.config, ?_, ?_, h6.replies,
    ?_⟩
  · calc Sys2Proof.core.run (5 + 2 * s.params.pollAttempts) s
        = Sys2Proof.core.run (3 + (2 * m + (2 + 1) + 1)) s := by rw [hm]; congr 1; omega
      _ = Sys2Proof.core.run (2 * m + (2 + 1) + 1) u := core_run_add 3 _ hu
      _ = Sys2Proof.core.run (2 * m + (2 + 1)) v := core_run_next hv _
      _ = Sys2Proof.core.run (2 + 1) w := core_run_add (2 * m) _ hw
      _ = Sys2Proof.core.run 2 x := core_run_next hx 2
      _ = Sys2Proof.core.run 1 y := core_run_next hy 1
      _ = .next (complete .timeoutError z) := core_run_next hz 0
  · simp [h6.pins, PinLayer.clkLvl]
  · simp [h6.pins, PinLayer.edgeArmed]
  · have hresult : z.result = s.result := congrArg Prod.snd h6.datapath
    have htr : ([okEvent s .armFallingEdge false, okEvent s (.writeLevel .low) false, okEvent s .readLevel true] ++
        pollTrace s s.params.pollAttempts ++ [okEvent s .disarmEdge false]).reverse =
        okEvent s .disarmEdge false :: .delay s.params.tPoll :: okEvent s .edgeWasDetected false ::
          ((pollTrace s m).reverse ++ [okEvent s .readLevel true, okEvent s (.writeLevel .low) false,
            okEvent s .armFallingEdge false]) := by
      simp [hm, pollTrace_snoc, delayTrace, ht]
    rw [hlog, complete_result, hresult, htr]
    rfl

end Sys2Proof.Machine

/-! PROOF. Exceptions (60_exceptions.md): refusals before INIT, failing primitives, the first failure, no stop, and the end
of every command (O13, O27, O36, O44, O50). -/

namespace Sys2Proof.Machine

/-! ### Refused before INIT (O13) -/

/-- Every command but INIT asks for `INITIALISED` at its acceptance (60_exceptions.md R225). -/
theorem exec_uninitialised {i : Instr} {s : State} (hi : ∀ c d, i ≠ .init c d) (hp : s.pos = .idle)
    (hini : s.initialised = false) : exec i s = .next (complete .notInitialised (accepted s)) := by
  cases i with
  | init c d => exact absurd rfl (hi c d)
  | reset => simp only [exec, execReset, hp, whenInitialised_not hini]
  | shutdown => simp only [exec, execShutdown, hp, whenInitialised_not hini]
  | read => simp only [exec, execRead, hp, readAccept, whenInitialised_not hini]
  | setgain n => simp only [exec, execSetgain, hp, whenInitialised_not hini]

/-- Settles O13: the refusal is the common acceptance and the completion. -/
theorem notInitialisedRefusals : Obligations.NotInitialisedRefusals := by
  intro i s hi hp hini
  exact ⟨_, exec_uninitialised hi hp hini, completedWith_accepted _ s, accepted_datapath s, accepted_counters s,
    accepted_config s, accepted_validity s, accepted_sameLines s, accepted_outside s⟩

/-! ### A failing primitive that ends its command (O27) -/

/-- RESET, SHUTDOWN and the frame of READ issue writes of the clock line and samples of the data line only, and a failing
one ends the command (41_lifecycle.md R153, R155; 42_read.md R193). -/
theorem exec_fail {s : State} {i : Instr} {p : Prim} {k : Cause} (hr : s.ready = true) (hi : s.running = some i)
    (hphase : s.pos.phase = .reset ∨ s.pos.phase = .shutdown ∨ s.pos.phase = .shift ∨ s.pos.phase = .endpulse)
    (hp : s.pos.prim = some p) (ha : s.answerTo p = some (.fail k)) :
    exec i s = .next (failWith .ioError p k (primitive p s).2) ∧ (p = .readLevel ∨ ∃ l, p = .writeLevel l) := by
  unfold State.running at hi
  rw [phase_eq] at hi
  cases e : s.pos <;> rw [e] at hi hp hphase <;> cases hp <;> cases hi
  case i0 | i1 | w0 | w1 | w2 | w3 | w5 => simp [Pos.phase] at hphase
  case rs0 | rs1 | rs3 => exact ⟨by simp only [exec, execReset, e, writeClock, issue_answered hr ha], .inr ⟨_, rfl⟩⟩
  case s0 => exact ⟨by simp only [exec, execShutdown, e, writeClock, issue_answered hr ha], .inr ⟨_, rfl⟩⟩
  case b0 | b2 | e0 | e2 => exact ⟨by simp only [exec, execRead, e, writeClock, issue_answered hr ha], .inr ⟨_, rfl⟩⟩
  case b4 => exact ⟨by simp only [exec, execRead, e, readB4, issue_answered hr ha], .inl rfl⟩

/-- Settles O27: the first failure is recorded over the primitive, which leaves every register alone. -/
theorem failingPrimitiveEndsTheCommand : Obligations.FailingPrimitiveEndsTheCommand := by
  intro s i p k hr hpend hi hphase hp ha
  obtain ⟨hexec, hkind⟩ := exec_fail hr hi hphase hp ha
  rw [failWith, failIo_first (.inl ((primitive_pend p s).trans hpend))] at hexec
  obtain ⟨hdatapath, hcounters, hconfig, hvalidity, -, houtside⟩ := primitive_sameRegisters p s
  have hlevel : (primitive p s).2.clkLvl = if p.pin = .clock then .unknown else s.clkLvl := by
    rw [primitive_fail_clkLvl ha]
    obtain rfl | ⟨l, rfl⟩ := hkind <;> rfl
  have harming : (primitive p s).2.edgeArmed = s.edgeArmed := by
    obtain rfl | ⟨l, rfl⟩ := hkind <;> exact primitive_other_edgeArmed (by simp) (by simp)
  exact ⟨_, hexec, completedWith_complete _ (primitive_cleanupFail p s) rfl (primitive_log ha), hdatapath, hcounters,
    hconfig, hvalidity, hlevel, harming, houtside⟩

/-! ### The first failure (O50) -/

/-- A micro-step from `u` records in `t` the failure of the primitive it has issued (40_primitives.md R133). -/
structure FailureRecorded (u t : State) (p : Prim) (k : Cause) : Prop where
  issued : u.pos.prim = some p
  first : u.pend ≠ .ioerr
  iocause : t.iocause = ⟨p.kind, p.pin, k⟩
  cleanup : t.cleanupFail = u.cleanupFail
  log : ∃ tr, t.log = tr ++ .prim p (u.handle p.pin) (.fail k) :: u.log ∧ (tr = [] ∨ ∃ r, tr = [.response r])

/-- The disarm fails after a timeout or an earlier failure, which stays the outcome (42_read.md R187). -/
structure CleanupFailed (u t : State) : Prop where
  position : u.pos = .w5
  iocause : t.iocause = u.iocause
  cleanup : t.cleanupFail = true
  outcome : u.pend = .timeout ∧ t.code = .timeoutError ∨ u.pend = .ioerr ∧ t.code = .ioError

/-- A first failure that ends its command. -/
theorem failureRecorded_complete {u : State} {p : Prim} {k : Cause} (hp : u.pos.prim = some p)
    (hpend : u.pend = .none ∨ u.pend = .ready) (ha : u.answerTo p = some (.fail k)) (c : Code) (d : Pend) :
    FailureRecorded u (complete c { failIo p k (primitive p u).2 with pend := d }) p k where
  issued := hp
  first := by obtain h | h := hpend <;> simp [h]
  iocause := by rw [failIo_first (by simpa using hpend)]; rfl
  cleanup := by rw [failIo_first (by simpa using hpend)]; exact primitive_cleanupFail p u
  log := ⟨[_], by rw [complete_log, failIo_log, primitive_log ha]; rfl, .inr ⟨_, rfl⟩⟩

/-- What a micro-step of a command does to `IOCAUSE` and `CLEANUP_FAIL` (60_exceptions.md R228). -/
theorem Works.failure {u t : State} (hw : Works u t) (h : Inv u) :
    (t.iocause = u.iocause ∧ t.cleanupFail = u.cleanupFail) ∨ (∃ p k, FailureRecorded u t p k) ∨
      CleanupFailed u t := by
  cases hw with
  | initFail p k hp hq hr ha =>
    have hpend := h.pend_none fun e => by simp [e, Pos.phase] at hp
    exact .inr (.inl ⟨p, k, failureRecorded_complete hq (.inl hpend) ha .configError _⟩)
  | fail p k hp hq hr ha =>
    have hpend := h.pend_none fun e => by simp [e, Pos.phase] at hp
    exact .inr (.inl ⟨p, k, failureRecorded_complete hq (.inl hpend) ha .ioError _⟩)
  | waitFail p k hp hq hr ha =>
    have hpend := h.pend_none fun e => by simp [e] at hp
    have hl := leavesWait_failed hpend ha
    have houtcome := hl.outcome
    simp only [State.outcome, Prod.mk.injEq] at houtcome
    obtain ⟨-, -, -, hcleanup, hio⟩ := houtcome
    exact .inr (.inl ⟨p, k, hq, by simp [hpend], hio, hcleanup, [], hl.log, .inl rfl⟩)
  | w5Disarm k hp hd hr ha =>
    exact .inr (.inl ⟨_, k, failureRecorded_complete (prim_disarmEdge.mpr hp) (.inr hd) ha .ioError .none⟩)
  | w5EndFail c k hp hd hr ha =>
    have hlater : (primitive .disarmEdge u).2.pend = .timeout ∨ (primitive .disarmEdge u).2.pend = .ioerr := by
      rw [primitive_pend]
      exact hd.imp And.left And.left
    rw [failIo_later hlater]
    exact .inr (.inr ⟨hp, primitive_iocause _ u, rfl, hd⟩)
  | countFall =>
    left
    obtain e | e := countPulse_cases (primitive (.writeLevel .low) u).2 <;> simp [e, readDone]
  | count =>
    left
    obtain e | e := countPulse_cases (delay u.params.tLow u) <;> simp [e, readDone]
  | _ => left; simp

/-- Settles O50: a failure is recorded while `IOCAUSE` is still clear, and a later one only as `CLEANUP_FAIL`. -/
theorem firstFailureWins : Obligations.FirstFailureWins := by
  intro s t h hr hbusy ht
  rw [phase_eq, Ne, phase_idle] at hbusy
  obtain ⟨hr', -⟩ | ⟨-, hidle, -⟩ | ⟨-, -, hw⟩ := step_cases ht
  · simp [hr] at hr'
  · exact absurd hidle hbusy
  obtain ⟨hio, hcf⟩ | ⟨p, k, hf⟩ | hc := hw.failure h.tick
  · exact ⟨fun hne => absurd hio hne, fun hne => absurd hcf hne⟩
  · refine ⟨fun _ => ⟨(h.clean hbusy).2 hf.first, p, k, s.log, hf.issued, hf.iocause, ?_⟩,
      fun hne => absurd hf.cleanup hne⟩
    obtain ⟨tr, hlog, rfl | ⟨r, rfl⟩⟩ := hf.log
    · exact .inl hlog
    · exact .inr ⟨r, hlog⟩
  · exact ⟨fun hne => absurd hc.iocause hne, fun _ => ⟨hc.cleanup, hc.position, hc.outcome⟩⟩

/-! ### No step stops the controller (O44) -/

theorem issue_ne_fault (p : Prim) (s : State) (k : Answer → State → State) (f : Fault) : issue p s k ≠ .fault f := by
  cases hr : s.ready with
  | true => simp [issue_ready hr]
  | false => simp [issue_unready hr]

theorem launch_ne_fault (p : Pos) (s : State) (f : Fault) : launch p s ≠ .fault f := by
  unfold launch
  split <;> nofun

theorem unlessShared_ne_fault {s : State} {o : Out} {f : Fault} (ho : o ≠ .fault f) : unlessShared s o ≠ .fault f := by
  unfold unlessShared
  split
  · nofun
  · exact ho

theorem whenInitialised_ne_fault {s : State} {k : State → Out} {f : Fault} (hk : ∀ u, k u ≠ .fault f) :
    whenInitialised s k ≠ .fault f := by
  refine unlessShared_ne_fault ?_
  split
  · exact hk _
  · nofun

/-- An acceptance may be refused, but it is no fault. -/
theorem exec_idle_ne_fault {s : State} (hp : s.pos = .idle) (i : Instr) (f : Fault) : exec i s ≠ .fault f := by
  cases i with
  | init c d =>
    simp only [exec, execInit, hp]
    refine unlessShared_ne_fault ?_
    split <;> nofun
  | reset =>
    simp only [exec, execReset, hp]
    exact whenInitialised_ne_fault fun u => launch_ne_fault _ u f
  | shutdown =>
    simp only [exec, execShutdown, hp]
    exact whenInitialised_ne_fault fun u => launch_ne_fault _ u f
  | read =>
    simp only [exec, execRead, hp]
    exact whenInitialised_ne_fault fun u => launch_ne_fault _ _ f
  | setgain n =>
    simp only [exec, execSetgain, hp]
    exact whenInitialised_ne_fault fun u => nofun

/-- With the pin layer set up and two different pins every command is accepted (41_lifecycle.md R150). -/
theorem exec_idle_next {s : State} (hp : s.pos = .idle) (hr : s.ready = true)
    (hs : s.initialised = true → s.cpin ≠ s.dpin) (i : Instr) : ∃ t, exec i s = .next t := by
  cases hini : s.initialised with
  | false =>
    cases i with
    | init c d => exact ⟨_, execInit_accepts hp hs fun _ => hr⟩
    | _ => exact ⟨_, exec_uninitialised (by simp) hp hini⟩
  | true =>
    cases i with
    | init c d => exact ⟨_, execInit_accepts hp hs fun _ => hr⟩
    | reset => exact ⟨_, exec_starts .reset hr hp hini (hs hini)⟩
    | shutdown => exact ⟨_, exec_starts .shutdown hr hp hini (hs hini)⟩
    | read => exact ⟨_, execRead_idle hp hini hr (hs hini)⟩
    | setgain n => exact ⟨_, execSetgain_initialised hp hini (hs hini) n⟩

/-- A position of a command that issues no primitive is a delay, which goes on. -/
theorem exec_delays {s : State} {i : Instr} (hi : s.running = some i) (hp : s.pos.prim = none) :
    ∃ t, exec i s = .next t := by
  unfold State.running at hi
  rw [phase_eq] at hi
  cases e : s.pos <;> rw [e] at hi hp <;> cases hp <;> cases hi
  case rs2 => exact ⟨_, execReset_rs2 e⟩
  case w4 => exact ⟨_, execRead_w4 e⟩
  case b1 | b3 | e1 | e3 => exact ⟨_, by simp only [exec, execRead, e]; rfl⟩

/-- Out of reset an idle step accepts a command, or goes on without one. -/
theorem step_idle {s : State} (hreset : s.inReset = false) (hp : s.pos = .idle) :
    (∃ t, step s = .next t) ∨ ∃ i, step s = exec i (taken s) := by
  have hready := (cmdReady_iff s).mpr ⟨hp, hreset⟩
  cases ho : s.cmds.head?.join with
  | none => exact .inl ⟨_, step_quiet hready ho⟩
  | some w =>
    obtain ⟨rest, hcmds⟩ := cmds_of_offered ho
    cases hd : decode w with
    | error e => exact .inl ⟨_, step_illegal hready hcmds hd⟩
    | ok i => exact .inr ⟨i, step_offered hp hreset hcmds hd⟩

/-- Out of reset a step of a command in progress issues a primitive, or goes on; at `W5` the invariant has an outcome
pending (42_read.md R187). -/
theorem step_busy_of_inv {s : State} (h : Inv s) (hreset : s.inReset = false) (hp : s.pos ≠ .idle) :
    (∃ t, step s = .next t) ∨ ∃ p k, step s = issue p (tick s) k := by
  obtain ⟨i, hi⟩ := Option.ne_none_iff_exists'.mp (mt (running_eq_none s).mp hp)
  rw [step_running hreset hi]
  cases hprim : s.pos.prim with
  | none => exact .inl (exec_delays (s := tick s) hi hprim)
  | some p =>
    obtain ⟨k, hk⟩ := exec_issues (s := tick s) hi hprim h.pend.mpr
    exact .inr ⟨p, k, hk⟩

theorem step_ne_fault_of_inv {s : State} (h : Inv s) (f : Fault) : step s ≠ .fault f := by
  cases hreset : s.inReset with
  | true => simp [step_inReset hreset]
  | false =>
    by_cases hp : s.pos = .idle
    · obtain ⟨t, ht⟩ | ⟨i, hi⟩ := step_idle hreset hp
      · simp [ht]
      · rw [hi]
        exact exec_idle_ne_fault (s := taken s) hp i f
    · obtain ⟨t, ht⟩ | ⟨p, k, hk⟩ := step_busy_of_inv h hreset hp
      · simp [ht]
      · rw [hk]
        exact issue_ne_fault p (tick s) k f

theorem step_next_of_inv {s : State} (h : Inv s) (hr : s.ready = true) (hs : s.initialised = true → s.cpin ≠ s.dpin) :
    ∃ t, step s = .next t := by
  cases hreset : s.inReset with
  | true => exact ⟨_, step_inReset hreset⟩
  | false =>
    by_cases hp : s.pos = .idle
    · obtain ht | ⟨i, hi⟩ := step_idle hreset hp
      · exact ht
      · rw [hi]
        exact exec_idle_next (s := taken s) hp hr hs i
    · obtain ht | ⟨p, k, hk⟩ := step_busy_of_inv h hreset hp
      · exact ht
      · exact ⟨_, hk.trans (issue_ready (s := tick s) hr p k)⟩

/-- Settles O44: the one fault is at `W5` with nothing pending, and a step is refused only without one of the premises. -/
theorem noStepStopsTheMachine : Obligations.NoStepStopsTheMachine :=
  fun _ h => ⟨step_ne_fault_of_inv h, step_next_of_inv h⟩

/-! ### The end of every command (O36) -/

/-- The most answers the command in progress still waits for (60_exceptions.md R237): each polling attempt takes one, each
data bit three, each of at most three end pulses two. -/
def answersLeft (s : State) : Nat :=
  match s.pos with
  | .idle => 0
  | .i1 | .s0 | .rs2 | .rs3 => 1
  | .i0 | .rs1 => 2
  | .rs0 => 3
  | .w0 => s.params.pollAttempts + 82
  | .w1 => s.params.pollAttempts + 81
  | .w2 => s.params.pollAttempts + 80
  | .w3 | .w4 => s.params.pollAttempts - s.pollcnt + 79
  | .w5 => 79
  | .b0 => 3 * (23 - s.bitcnt) + 9
  | .b1 | .b2 => 3 * (23 - s.bitcnt) + 8
  | .b3 | .b4 => 3 * (23 - s.bitcnt) + 7
  | .e0 => 2 * (2 - s.pulsecnt) + 2
  | .e1 | .e2 => 2 * (2 - s.pulsecnt) + 1
  | .e3 => 2 * (2 - s.pulsecnt)

/-- The most delays the command in progress still has to pass (60_exceptions.md R237): each polling attempt takes one, each
data bit and each of at most three end pulses two. -/
def delaysLeft (s : State) : Nat :=
  match s.pos with
  | .idle | .i0 | .i1 | .s0 | .rs3 => 0
  | .rs0 | .rs1 | .rs2 => 1
  | .w0 | .w1 | .w2 => s.params.pollAttempts + 54
  | .w3 => s.params.pollAttempts - s.pollcnt + 54
  | .w4 => s.params.pollAttempts - s.pollcnt + 55
  | .w5 => 54
  | .b0 | .b1 => 2 * (23 - s.bitcnt) + 8
  | .b2 | .b3 => 2 * (23 - s.bitcnt) + 7
  | .b4 => 2 * (23 - s.bitcnt) + 6
  | .e0 | .e1 => 2 * (2 - s.pulsecnt) + 2
  | .e2 | .e3 => 2 * (2 - s.pulsecnt) + 1

theorem answersLeft_le (s : State) : answersLeft s ≤ s.params.pollAttempts + 82 := by
  unfold answersLeft
  split <;> omega

theorem answersLeft_add_delaysLeft_le (s : State) :
    answersLeft s + delaysLeft s ≤ 2 * s.params.pollAttempts + 136 := by
  unfold answersLeft delaysLeft
  cases s.pos <;> simp only <;> omega

theorem answersLeft_pos {s : State} {p : Prim} (hp : s.pos.prim = some p) : 0 < answersLeft s := by
  unfold answersLeft
  cases e : s.pos <;> rw [e] at hp <;> cases hp <;> simp only <;> omega

theorem answersLeft_add_delaysLeft_pos {s : State} (hp : s.pos ≠ .idle) : 0 < answersLeft s + delaysLeft s := by
  unfold answersLeft delaysLeft
  cases e : s.pos with
  | idle => exact absurd e hp
  | _ => simp only; omega

/-! #### A micro-step brings the end nearer -/

/-- The micro-step from `u` to `t` takes one answer off what is left to do, or one delay. -/
inductive Nearer (u t : State) : Prop where
  | answer (p : Prim) (hp : u.pos.prim = some p) (hr : t.replies = (primitive p u).2.replies)
      (left : answersLeft t < answersLeft u ∧ delaysLeft t ≤ delaysLeft u)
  | delay (hp : u.pos.prim = none) (hr : t.replies = u.replies)
      (left : answersLeft t ≤ answersLeft u ∧ delaysLeft t < delaysLeft u)

@[simp] theorem countPulse_replies (s : State) : (countPulse s).replies = s.replies := by
  obtain h | h := countPulse_cases s <;> rw [h] <;> rfl

/-- The counting of an end pulse leaves the end pulses after it (42_read.md R191), of which there are at most three. -/
theorem countPulse_left {v : State} (hlt : v.pulsecnt < v.endpulses.toNat) : (countPulse v).pos = .idle ∨
    answersLeft (countPulse v) ≤ 2 * (2 - v.pulsecnt) ∧ delaysLeft (countPulse v) ≤ 2 * (2 - v.pulsecnt) := by
  have hthree := v.endpulses.isLt
  by_cases hn : v.pulsecnt + 1 = v.endpulses.toNat
  · exact .inl (by rw [countPulse_last hn]; rfl)
  · rw [countPulse_more hn]
    exact .inr (by simp only [answersLeft, delaysLeft, goto_pos, goto_pulsecnt]; omega)

/-- A micro-step of a command whose primitive, if it issues one, is answered, ends the command or brings its end
nearer. -/
theorem Works.nearer {u t : State} (hw : Works u t) (h : Inv u)
    (hanswered : ∀ p, u.pos.prim = some p → u.answerTo p ≠ none) : t.pos = .idle ∨ Nearer u t := by
  cases hw with
  | wait p hp hr ha => exact absurd ha (hanswered p hp)
  | i1 | initFail | rs3 | s0 | w5Disarm | w5End | w5EndFail | fail => exact .inl rfl
  | i0 v hp | rs0 v hp | rs1 v hp | w0 v hp | w1 v hp | w2Low hp | w2High hp | w5Shift v hp =>
    exact .inr (.answer _ (by rw [hp]; rfl) rfl (by simp [answersLeft, delaysLeft, hp] <;> omega))
  | w3Edge hp | w3None hp =>
    have hlt := h.pollcnt_lt hp
    exact .inr (.answer _ (by rw [hp]; rfl) rfl (by simp [answersLeft, delaysLeft, hp]; omega))
  | waitFail p k hp hq =>
    refine .inr (.answer p hq (failIo_replies p k _) ?_)
    obtain hp | hp | hp := hp
    · simp [answersLeft, delaysLeft, waitFailed, hp]
    · simp [answersLeft, delaysLeft, waitFailed, hp]
    · have hlt := h.pollcnt_lt hp
      simp only [answersLeft, delaysLeft, waitFailed, hp, leaveWait_pos]
      omega
  | rs2 hp | w4Last hp | w4More hp | b3 hp =>
    exact .inr (.delay (by rw [hp]; rfl) (delay_replies _ u) (by simp [answersLeft, delaysLeft, hp]))
  | rise p q v hp hq =>
    refine .inr (.answer (.writeLevel .high) ?_ rfl ?_) <;>
      obtain ⟨rfl, rfl⟩ | ⟨rfl, rfl⟩ | ⟨rfl, rfl⟩ | ⟨rfl, rfl⟩ := hq <;> simp [answersLeft, delaysLeft, hp, Pos.prim]
  | fall p q v hp hq =>
    refine .inr (.answer (.writeLevel .low) ?_ rfl ?_) <;>
      obtain ⟨rfl, rfl⟩ | ⟨rfl, rfl⟩ | ⟨rfl, rfl⟩ := hq <;> simp [answersLeft, delaysLeft, hp, Pos.prim]
  | hold p q hp hq =>
    refine .inr (.delay ?_ (delay_replies _ u) ?_) <;>
      obtain ⟨rfl, rfl⟩ | ⟨rfl, rfl⟩ := hq <;> simp [answersLeft, delaysLeft, hp, Pos.prim]
  | b4 v q hp hq =>
    have hlt := h.bitcnt_lt (by rw [hp]; rfl)
    refine .inr (.answer _ (by rw [hp]; rfl) rfl ?_)
    split at hq <;> subst hq <;> simp [answersLeft, delaysLeft, hp] <;> omega
  | countFall v hp =>
    have hlt := h.pulsecnt_lt (by rw [hp]; rfl)
    refine (countPulse_left (v := (primitive (.writeLevel .low) u).2) (by simpa using hlt)).imp_right fun hleft => ?_
    rw [primitive_pulsecnt] at hleft
    refine .answer _ (by rw [hp]; rfl) (countPulse_replies _) ?_
    rw [show answersLeft u = 2 * (2 - u.pulsecnt) + 1 by simp [answersLeft, hp],
      show delaysLeft u = 2 * (2 - u.pulsecnt) + 1 by simp [delaysLeft, hp]]
    omega
  | count hp =>
    have hlt := h.pulsecnt_lt (by rw [hp]; rfl)
    refine (countPulse_left (v := delay u.params.tLow u) (by simpa using hlt)).imp_right fun hleft => ?_
    rw [delay_pulsecnt] at hleft
    refine .delay (by rw [hp]; rfl) ((countPulse_replies _).trans (delay_replies _ u)) ?_
    rw [show answersLeft u = 2 * (2 - u.pulsecnt) by simp [answersLeft, hp],
      show delaysLeft u = 2 * (2 - u.pulsecnt) + 1 by simp [delaysLeft, hp]]
    omega

/-! #### The answers laid down -/

/-- In the `abstract` binding every answer the command may wait for is laid down, and none is missing (93 U11). -/
def Supplied (s : State) : Prop := ∀ a, s.pins = .abstr a → none ∉ s.replies ∧ answersLeft s ≤ s.replies.length

theorem Supplied.answerTo_ne_none {s : State} (h : Supplied s) {p : Prim} (hp : s.pos.prim = some p) :
    s.answerTo p ≠ none := by
  cases hpins : s.pins with
  | ref r => simp [(answerTo_ref hpins p).1]
  | abstr a =>
    obtain ⟨hnone, hlen⟩ := h a hpins
    have hpos := answersLeft_pos hp
    cases hrep : s.replies with
    | nil => simp [hrep] at hlen; omega
    | cons r rest =>
      cases r with
      | none => simp [hrep] at hnone
      | some raw => simp [answerTo_reply hpins hrep]

/-- A primitive of the `abstract` binding takes the first of the answers laid down (20_memory.md R65). -/
theorem primitive_replies {s : State} {a : AbstractPins} (h : s.pins = .abstr a) (p : Prim) :
    (primitive p s).2.replies = s.replies.tail := by
  rw [primitive_abstr h]
  cases hrep : s.replies with
  | nil =>
    simp only [drawAnswer, hrep]
    cases Config.freeAnswer s.draws <;> simp
  | cons r rest =>
    rw [drawAnswer_cons hrep]
    cases r <;> rfl

theorem Supplied.nearer {u t : State} (h : Supplied u) (hn : Nearer u t) (href : t.pins.isRef = u.pins.isRef) :
    Supplied t := by
  intro a ha
  obtain ⟨b, hb⟩ : ∃ b, u.pins = .abstr b := by
    cases hu : u.pins with
    | abstr b => exact ⟨b, rfl⟩
    | ref r => rw [ha, hu] at href; cases href
  obtain ⟨hnone, hlen⟩ := h b hb
  cases hn with
  | answer p hp hr left =>
    rw [hr, primitive_replies hb, List.length_tail]
    exact ⟨fun hm => hnone (List.mem_of_mem_tail hm), by omega⟩
  | delay hp hr left =>
    rw [hr]
    exact ⟨hnone, by omega⟩

/-! #### The run -/

/-- One micro-step of a command whose primitives are answered: its response, or a step nearer to it. -/
theorem step_nearer {s : State} (h : Inv s) (hp : s.pos ≠ .idle) (hready : s.ready = true) (hrstn : s.rstn = [])
    (hs : Supplied s) : ∃ t, step s = .next t ∧ (t.pos = .idle ∧ t.done = true ∧ t.rspValid = true ∨
      t.pos ≠ .idle ∧ t.rstn = [] ∧ Nearer (tick s) t) := by
  have hpins : s.initialised = true → s.cpin ≠ s.dpin := fun hini =>
    (h.running (mt (phase_idle s.pos).mp hp) fun hinit => by simp [h.init hinit] at hini).2
  obtain ⟨t, ht⟩ := step_next_of_inv h hready hpins
  obtain ⟨hreset, -⟩ | ⟨-, hidle, -⟩ | ⟨-, -, hw⟩ := step_cases ht
  · simp [State.inReset, hrstn] at hreset
  · exact absurd hidle hp
  refine ⟨t, ht, (hw.responds (tick_rspValid s) hp).imp (fun hresponds => ?_) fun ⟨_, hpos⟩ => ⟨hpos, ?_, ?_⟩⟩
  · obtain ⟨hvalid, hidle, hdone, -⟩ := hresponds.raised
    exact ⟨hidle, hdone, hvalid⟩
  · obtain ⟨houtside, -⟩ := hw.lines
    simp only [State.outside, Prod.mk.injEq] at houtside
    obtain ⟨-, -, -, hr⟩ := houtside
    rw [hr, tick_rstn, hrstn]
    rfl
  · exact (hw.nearer h.tick fun p => Supplied.answerTo_ne_none (s := tick s) hs).resolve_left hpos

/-- A command ends within as many micro-steps as it has answers and delays left. -/
theorem run_ends {n : Nat} {s : State} (h : Inv s) (hp : s.pos ≠ .idle) (hready : s.ready = true)
    (hrstn : s.rstn = []) (hs : Supplied s) (hle : answersLeft s + delaysLeft s ≤ n) :
    ∃ k t, k ≤ n ∧ Sys2Proof.core.run k s = .next t ∧ t.pos = .idle ∧ t.done = true ∧ t.rspValid = true := by
  induction n generalizing s with
  | zero =>
    have hpos := answersLeft_add_delaysLeft_pos hp
    omega
  | succ n ih =>
    obtain ⟨t, ht, hends | ⟨hpos, htrstn, hnearer⟩⟩ := step_nearer h hp hready hrstn hs
    · exact ⟨1, t, by omega, core_run_next ht 0, hends⟩
    · obtain ⟨-, htready, href⟩ := step_fixed ht
      have hdown : answersLeft t + delaysLeft t < answersLeft s + delaysLeft s := by
        change _ < answersLeft (tick s) + delaysLeft (tick s)
        cases hnearer <;> omega
      obtain ⟨k, v, hk, hrun, hends⟩ := ih (invariantKept s t h ht) hpos (htready.trans hready) htrstn
        (Supplied.nearer (u := tick s) hs hnearer href) (by omega)
      exact ⟨k + 1, v, by omega, (core_run_next ht k).trans hrun, hends⟩

/-- Settles O36: every micro-step takes an answer or a delay off what is left to do, and both are bounded. -/
theorem everyCommandEnds : Obligations.EveryCommandEnds := by
  intro s h hbusy hready hrstn hreplies
  have hs : Supplied s := fun a ha =>
    have ⟨hnone, hlen⟩ := hreplies a ha
    ⟨fun hm => hnone none hm rfl, Nat.le_trans (answersLeft_le s) hlen⟩
  exact run_ends h (mt (phase_idle s.pos).mpr hbusy) hready hrstn hs (answersLeft_add_delaysLeft_le s)

end Sys2Proof.Machine

/-! PROOF. What the model refuses, and the clock edges of each micro-step (70_reset_and_hazards.md R266, R273, R281):
O29, O57. -/

namespace Sys2Proof.Machine

/-! ### Refused situations (O29) -/

theorem launch_unready {s : State} (hr : s.ready = false) (p : Pos) : launch p s = .refused .pinLayerNotReady := by
  simp [launch, hr]

/-- Every acceptance asks first whether the two handles name one pin (41_lifecycle.md R152(e)). -/
theorem exec_shared {s : State} (hp : s.pos = .idle) (hi : s.initialised = true) (hs : s.cpin = s.dpin) (i : Instr) :
    exec i s = .refused .sharedPins := by
  have hrefused (k : Out) : unlessShared s k = .refused .sharedPins := unlessShared_refused hi hs k
  cases i with
  | init c d => simp only [exec, execInit, hp, hrefused]
  | reset => simp only [exec, execReset, hp, whenInitialised, hrefused]
  | shutdown => simp only [exec, execShutdown, hp, whenInitialised, hrefused]
  | read => simp only [exec, execRead, hp, readAccept, whenInitialised, hrefused]
  | setgain n => simp only [exec, execSetgain, hp, whenInitialised, hrefused]

/-- The commands that start a micro-program without resolving identifiers launch it (70_reset_and_hazards.md R266). -/
theorem exec_idle_unready {s : State} {i : Instr} (hr : s.ready = false) (hp : s.pos = .idle)
    (hi : s.initialised = true) (hne : s.cpin ≠ s.dpin) (hcmd : i = .reset ∨ i = .shutdown ∨ i = .read) :
    exec i s = .refused .pinLayerNotReady := by
  have hr' : (accepted s).ready = false := (accepted_ready s).trans hr
  obtain rfl | rfl | rfl := hcmd
  · simp only [exec, execReset, hp, whenInitialised_ok hi hne, launch_unready hr']
  · simp only [exec, execShutdown, hp, whenInitialised_ok hi hne, launch_unready hr']
  · simp only [exec, execRead, hp, readAccept, whenInitialised_ok hi hne,
      launch_unready ((readClear_ready _).trans hr')]

/-- INIT needs the pin layer once both identifiers resolve (41_lifecycle.md R151, 70_reset_and_hazards.md R266). -/
theorem execInit_unready {s : State} {c d : PinId} (hr : s.ready = false) (hp : s.pos = .idle)
    (hs : s.initialised = true → s.cpin ≠ s.dpin) (hneeds : initNeedsPins c d s = true) :
    exec (.init c d) s = .refused .pinLayerNotReady := by
  simp [exec, execInit, hp, unlessShared_ok hs, hr, hneeds]

/-- Settles O29: a shared pin is refused first; then `issue`, `launch` and INIT's acceptance ask for the pin layer. -/
theorem refusedSituations : Obligations.RefusedSituations := by
  refine ⟨fun s i hp hi hs => exec_shared hp hi hs i, fun s i p hr hi hp hpend => ?_,
    fun s i hr hp hi hne hcmd => exec_idle_unready hr hp hi hne hcmd, fun s c d hr hp hs hc hd => ?_⟩
  · obtain ⟨k, hk⟩ := exec_issues hi hp hpend
    rw [hk, issue_unready hr]
  · exact execInit_unready hr hp hs (by simp [initNeedsPins, hc, hd])

/-! ### Clock edges of a micro-step (O57) -/

/-- The cycles of a delay are the least number that lasts as long as it (70_reset_and_hazards.md R281). -/
theorem cyclesOf_le_iff (p : Params) (t m : Nat) (h : 0 < p.clkMicros * p.ticksPerMicro) :
    p.cyclesOf t ≤ m ↔ t * p.clkCycles ≤ m * (p.clkMicros * p.ticksPerMicro) := by
  constructor
  · exact fun hm => Nat.le_trans (le_cyclesOf_mul p t h) (Nat.mul_le_mul_right _ hm)
  · intro hm
    have hlt : p.cyclesOf t * (p.clkMicros * p.ticksPerMicro) < (m + 1) * (p.clkMicros * p.ticksPerMicro) := by
      rw [Nat.succ_mul]
      exact Nat.lt_of_lt_of_le (cyclesOf_mul_lt p t h) (Nat.add_le_add_right hm _)
    exact Nat.le_of_lt_succ (Nat.lt_of_mul_lt_mul_right hlt)

/-- `t` stands after the same clock edges as `v`: the pin layer and the levels of `dout` still to come agree. -/
structure SameEdges (v t : State) : Prop where
  pins : t.pins = v.pins
  dout : t.dout = v.dout

/-- A position issues a primitive or a delay, never both (00_scope.md R11). -/
theorem delayDue_of_prim {s : State} {p : Prim} (hp : s.pos.prim = some p) : s.delayDue = none := by
  unfold State.delayDue
  cases e : s.pos <;> rw [e] at hp <;> cases hp

/-- A micro-step of a command takes the clock edges of its primitive or of its delay, and no others. -/
theorem Works.sameEdges {u t : State} (h : Works u t) :
    (∃ p, u.pos.prim = some p ∧ SameEdges (primitive p u).2 t) ∨
      ∃ n, u.delayDue = some n ∧ SameEdges (delay n u) t := by
  cases h with
  | rs2 hp | w4Last hp | w4More hp | b3 hp => exact .inr ⟨_, by rw [State.delayDue, hp], rfl, rfl⟩
  | hold p q hp hq =>
    exact .inr ⟨_, by rw [State.delayDue, hp]; obtain ⟨rfl, -⟩ | ⟨rfl, -⟩ := hq <;> rfl, rfl, rfl⟩
  | count hp => exact .inr ⟨_, by rw [State.delayDue, hp], countPulse_pins _, countPulse_dout _⟩
  | wait p hp => exact .inl ⟨p, hp, rfl, rfl⟩
  | initFail p k hp hq | fail p k hp hq | waitFail p k hp hq =>
    exact .inl ⟨p, hq, by simp [failWith, waitFailed], by simp [failWith, waitFailed]⟩
  | rise p q v hp hq =>
    exact .inl ⟨_, by rw [hp]; obtain ⟨rfl, -⟩ | ⟨rfl, -⟩ | ⟨rfl, -⟩ | ⟨rfl, -⟩ := hq <;> rfl, rfl, rfl⟩
  | fall p q v hp hq =>
    exact .inl ⟨_, by rw [hp]; obtain ⟨rfl, -⟩ | ⟨rfl, -⟩ | ⟨rfl, -⟩ := hq <;> rfl, rfl, rfl⟩
  | w5Disarm k hp | w5EndFail c k hp => exact .inl ⟨.disarmEdge, by rw [hp]; rfl, by simp, by simp⟩
  | countFall v hp => exact .inl ⟨.writeLevel .low, by rw [hp]; rfl, countPulse_pins _, countPulse_dout _⟩
  | w2Low hp | w2High hp | w3Edge hp | w3None hp => exact .inl ⟨_, by rw [hp]; rfl, rfl, rfl⟩
  | i0 v hp | i1 v hp | rs0 v hp | rs1 v hp | rs3 v hp | s0 v hp | w0 v hp | w1 v hp | w5Shift v hp | w5End c v hp
  | b4 v q hp => exact .inl ⟨_, by rw [hp]; rfl, rfl, rfl⟩

/-- An acceptance, or an idle micro-step without one, takes one clock edge (70_reset_and_hazards.md R281, log 20). -/
theorem Accepts.sameEdges {w : Option Word} {u t : State} (h : Accepts w u t) : SameEdges (cycle u) t := by
  cases h <;> exact ⟨rfl, rfl⟩

/-- The micro-step of a delay goes on, over the edges of that delay. -/
theorem exec_delay_sameEdges {s : State} {i : Instr} {t : Nat} (hi : s.running = some i) (hd : s.delayDue = some t) :
    ∃ u, exec i s = .next u ∧ SameEdges (delay t s) u := by
  have hnone : s.pos.prim = none := Option.eq_none_iff_forall_ne_some.mpr fun p hp => by
    rw [delayDue_of_prim hp] at hd
    cases hd
  obtain ⟨u, hu⟩ := exec_delays hi hnone
  obtain ⟨p, hp, -⟩ | ⟨n, hn, hedges⟩ := (exec_running_cases hi hu).sameEdges
  · rw [hnone] at hp
    cases hp
  · rw [hd] at hn
    cases hn
    exact ⟨u, hu, hedges⟩

/-- With the pin layer set up the micro-step of a primitive goes on, over the edges of that primitive. -/
theorem exec_prim_sameEdges {s : State} {i : Instr} {p : Prim} (hr : s.ready = true) (hi : s.running = some i)
    (hp : s.pos.prim = some p) (hpend : s.pos = .w5 → s.pend ≠ .none) :
    ∃ u, exec i s = .next u ∧ SameEdges (primitive p s).2 u := by
  obtain ⟨k, hk⟩ := exec_issues hi hp hpend
  have hu := hk.trans (issue_ready hr p k)
  obtain ⟨q, hq, hedges⟩ | ⟨n, hn, -⟩ := (exec_running_cases hi hu).sameEdges
  · rw [hp] at hq
    cases hq
    exact ⟨_, hu, hedges⟩
  · rw [delayDue_of_prim hp] at hn
    cases hn

/-- Out of reset an idle step takes one clock edge, whatever the port carries. -/
theorem step_idle_sameEdges {s t : State} (hready : s.cmdReady = true) (ht : step s = .next t) :
    SameEdges (cycle (taken s)) t := by
  obtain ⟨hidle, hreset⟩ := (cmdReady_iff s).mp hready
  obtain ⟨hr, -⟩ | ⟨-, -, ha⟩ | ⟨-, hbusy, -⟩ := step_cases ht
  · simp [hreset] at hr
  · exact ha.sameEdges
  · exact absurd hidle hbusy

/-- Settles O57: a delay takes its least number of cycles, a primitive and an idle step one edge each. -/
theorem referenceClockEdges : Obligations.ReferenceClockEdges := by
  intro s r ds rest hpins hdout
  refine ⟨fun i t hc hi hd hlong hleast => ?_, fun i p hr hi hp hpend hlen => ?_, fun u hready hlen hu => ?_⟩
  · have hlen : ds.length = s.params.cyclesOf t :=
      Nat.le_antisymm (hleast _ (le_cyclesOf_mul s.params t hc)) ((cyclesOf_le_iff s.params t _ hc).mpr hlong)
    obtain ⟨u, hu, hedges⟩ := exec_delay_sameEdges hi hd
    obtain ⟨hafter, hrest⟩ := delay_ref hc hpins hdout hlen
    exact ⟨u, hu, hedges.pins.trans hafter, hedges.dout.trans hrest⟩
  · obtain ⟨d, rfl⟩ := List.length_eq_one_iff.mp hlen
    obtain ⟨u, hu, hedges⟩ := exec_prim_sameEdges hr hi hp hpend
    obtain ⟨hafter, hrest⟩ := primitive_ref_cons hpins hdout p
    exact ⟨u, hu, hedges.pins.trans hafter, hedges.dout.trans hrest⟩
  · obtain ⟨d, rfl⟩ := List.length_eq_one_iff.mp hlen
    have hedges := step_idle_sameEdges hready hu
    rw [cycle_ref (s := taken s) hpins hdout] at hedges
    exact ⟨hedges.pins, hedges.dout⟩

end Sys2Proof.Machine
